-- ==== Sys2Proof/Word.lean ====
section
/-! DEFINITION. The word types of the engine (spec/00_scope.md R9): a bit, a byte, a 32-bit host word, a 64-bit word. -/

namespace Sys2Proof

/-- A bit of R9, `true` for 1 and `false` for 0: a bus level, a sample, a flag. -/
abbrev Bit := Bool

/-- A byte (u8 of R9). -/
abbrev Byte := BitVec 8

/-- A host word: every host register is 32 bits wide (R21). -/
abbrev Word := BitVec 32

/-- A 64-bit pattern: an s64 of the compensator (R190) or the encoding of a binary64 value (R230). -/
abbrev DWord := BitVec 64

end Sys2Proof
end

