-- ==== Sys2Proof/Syntax.lean ====
section
/-! DEFINITION. The syntax of the engine's world: its nine commands (one constructor per row of spec/opcode_table.json),
the events of the bus (R73), the registers of the window (R61), and what reaches the engine from outside: host
accesses, engine turns and resets. -/

namespace Sys2Proof

/-- The nine commands of R91. A command word has no operand field (R94): every operand is latched at acceptance. -/
inductive Instr where
  /-- NOP, OP = 0 (R117). -/
  | nop
  /-- RESET, OP = 1 (R135). -/
  | reset
  /-- WRITE_BIT, OP = 2 (R138). -/
  | writeBit
  /-- READ_BIT, OP = 3 (R140). -/
  | readBit
  /-- WRITE_BYTE, OP = 4 (R161). -/
  | writeByte
  /-- READ_BYTE, OP = 5 (R163). -/
  | readByte
  /-- READ_TEMP, OP = 6 (R176). -/
  | readTemp
  /-- COMPENSATE, OP = 7 (R197). -/
  | compensate
  /-- ALTITUDE, OP = 8 (R235). -/
  | altitude
  deriving DecidableEq, Repr

/-- One entry of a command's event list `E` (R113): a bus event still to be performed. -/
inductive BusOp where
  /-- `Drive(v)`: set the drive pin; 0 pulls the line low, 1 releases it (R131). -/
  | drive (v : Bit)
  /-- `WaitUs(d)`: one timed phase of nominal length d µs (R13, R134). -/
  | waitUs (d : Nat)
  /-- `WaitMs(d)`: one timed phase of d ms (R177). -/
  | waitMs (d : Nat)
  /-- `Sample`: read the sense pin (R141). -/
  | sample
  deriving DecidableEq, Repr

/-- One event of the bus trace `H` (R73): what the engine has done, a sample with the bit it returned. -/
inductive BusEvent where
  /-- `Drive(v)` was performed. -/
  | drive (v : Bit)
  /-- `WaitUs(d)` was performed. -/
  | waitUs (d : Nat)
  /-- `WaitMs(d)` was performed. -/
  | waitMs (d : Nat)
  /-- `Sample(s)`: the sense pin returned s. -/
  | sample (s : Bit)
  /-- `Abort`: a reset interrupted a command (R281). -/
  | abort
  deriving DecidableEq, Repr

/-- What answers the engine's samples (R75, R76). Plain data; `free` is the normative oracle, the others are for tests.
See notes/assumptions/6.md. -/
inductive BusDevice where
  /-- The free oracle of R75: any function of the trace before the sample. -/
  | free
  /-- `WIRE` of R76: a sample returns the current DRIVE level. -/
  | wire
  /-- `ECHO(w)` of R76: presence at a reset sample, bit k of w at read slot k after the last reset. -/
  | echo (w : List Bit)
  /-- The answers of some oracle written out, next first; when they run out, the free oracle answers. -/
  | script (answers : List Bit)
  deriving DecidableEq, Repr

/-- The registers of the window (R61). -/
inductive Reg where
  | cmd | status | txdata | rxdata | scratch | temp | praw | tfine | press | alt
  | cal0 | cal1 | cal2 | cal3 | cal4
  deriving DecidableEq, Repr

/-- The width of a host access (R62): 1, 2, 4 or 8 bytes. -/
inductive Width where
  | byte | half | word | double
  deriving DecidableEq, Repr

/-- What can happen next, as the environment chose it (R70, R71, R265; notes/assumptions/2.md). An access names its
place by its offset from BASE, seven bits wide because the window has 128 bytes (R60; notes/assumptions/5.md). -/
inductive Input where
  /-- The scheduler gives the engine its turn (R71). -/
  | engineTurn
  /-- `MemRead(BASE + off, width)`. -/
  | hostRead (off : BitVec 7) (width : Width)
  /-- `MemWrite(BASE + off, width, value)`. -/
  | hostWrite (off : BitVec 7) (width : Width) (value : Word)
  /-- `POLL` of R96: read STATUS until BUSY = 0 (notes/assumptions/3.md). -/
  | poll
  /-- The reset input (R280, R281). -/
  | reset
  deriving DecidableEq, Repr

end Sys2Proof
end

