-- ==== Sys2Proof/Config.lean ====
section
/-! DEFINITION. What an implementation fixes and what the spec leaves free: the timing parameters of R7 with the constraints
of R133, the window's base, and the free functions POW (R233), ALT_OOR (R234), the bus oracle (R75) and the patterns
of NaN results. A free constant has no body: no proof can see its value, so a statement holds for every value of it. -/

namespace Sys2Proof

/-- The OPEN timing parameters of R7, in µs (notes/assumptions/7.md). -/
structure Timing where
  /-- `T_RSTL`, reset-hold. -/
  tRstl : Nat
  /-- `T_RSTW`, reset-wait. -/
  tRstw : Nat
  /-- `T_PDS`, presence-sample-offset. -/
  tPds : Nat
  /-- `T_RST`, reset-total. -/
  tRst : Nat
  /-- `T_W0L`, write-0-hold. -/
  tW0l : Nat
  /-- `T_W1L`, write-1-hold (nominal, no wait phase). -/
  tW1l : Nat
  /-- `T_RL`, read-hold (nominal, no wait phase, C8). -/
  tRl : Nat
  /-- `T_RS`, read-sample-offset. -/
  tRs : Nat
  /-- `T_RSLOT`, read-slot-width. -/
  tRslot : Nat
  /-- `T_REC`, inter-slot recovery: used by no phase (C6). -/
  tRec : Nat
  /-- `T_OVH`, fixed overhead of the delay primitive; a natural number, so `T_OVH >= 0` of R133 holds. -/
  tOvh : Nat
  deriving DecidableEq, Repr

/-- `T_SLOT`, write-slot-width: 60 µs (R7). -/
def Config.tSlot : Nat := 60

/-- `T_MIN`, the smallest delay the microsecond primitive performs accurately: 8 µs (R7). -/
def Config.tMin : Nat := 8

/-- `T_CONV`, the conversion time: 750 ms (R7). -/
def Config.tConv : Nat := 750

/-- The phases of R134 in its order: P_RST1, P_RST2, P_RST3, P_W1, P_W0, P_R2, P_R3. -/
def Timing.phases (t : Timing) : List Nat :=
  [t.tRstl, t.tRstw + t.tPds, t.tRst - t.tRstl - t.tRstw - t.tPds, Config.tSlot - t.tW1l, t.tW0l, t.tRs,
   t.tRslot - t.tRl - t.tRs]

/-- The constraints of R133. -/
def Timing.admitted (t : Timing) : Bool :=
  decide (t.tRstl < t.tRst) && decide (t.tRstl + t.tRstw + t.tPds < t.tRst)
    && decide (t.tW0l < Config.tSlot) && decide (t.tW1l < Config.tSlot)
    && decide (t.tRl < t.tRslot) && decide (t.tRl + t.tRs < t.tRslot)
    && t.phases.all (fun d => decide (t.tOvh + Config.tMin ≤ d))

/-- The admitted test configuration K-1 of spec/95_test_vectors.md 2.1. It only shows that an admitted configuration
exists; the model's configuration is `Config.timing`, about whose values nothing is known. -/
def Timing.vectorK1 : Timing :=
  { tRstl := 480, tRstw := 60, tPds := 10, tRst := 960, tW0l := 56, tW1l := 6, tRl := 4, tRs := 12, tRslot := 60,
    tRec := 2, tOvh := 4 }

/-- A timing configuration together with its admission: a configuration that breaks R133 has no run, since no machine
is built on it (R8, R258). -/
structure AdmittedTiming where
  /-- The parameters. -/
  timing : Timing := Timing.vectorK1
  /-- They meet R133. -/
  admitted : timing.admitted = true := by decide
  deriving Inhabited

/-- The configuration of the machine: any admitted one (R7, R8). -/
opaque Config.timing : AdmittedTiming

/-- Which 128-byte block of the host's address space holds the window. -/
opaque Config.baseBlock : Nat

/-- `BASE`, a multiple of 128 (R61, D27). -/
def Config.base : Nat := 128 * Config.baseBlock

/-- `POW` of R233: a function of two binary64 encodings about which nothing is assumed. -/
opaque Config.pow : DWord → DWord → DWord

/-- `ALT_OOR` of R234: the value ALT takes when the altitude does not convert to u32; any function of it. -/
opaque Config.altOor : DWord → Word

/-- The bus oracle of R75: any function from the trace before a sample to the bit returned. -/
opaque Config.oracle : List BusEvent → Bit

/-- The bits of a NaN that an operation with these two operand encodings produces, before it is made a quiet NaN: the
spec names no NaN pattern (notes/assumptions/11.md). -/
opaque Config.nanBits : DWord → DWord → DWord

end Sys2Proof
end

