-- ==== Sys2Proof/Machine/Binary64.lean ====
section
/-! DEFINITION. IEEE 754 binary64 division, subtraction and multiplication, rounded to nearest, ties to even (R11, R230), on the
encodings. A finite magnitude is a whole number of units of 2^-1074 (the least subnormal), so each operation is
exact arithmetic on natural or whole numbers followed by one rounding. See notes/assumptions/12.md. -/

namespace Sys2Proof.Machine

/-- How many units of 2^-1074 make 1. -/
def unitsPerOne : Nat := 2 ^ 1074

/-- The encoding of +infinity as a number: exponent field all ones, fraction 0. -/
def infinityBits : Nat := 0x7FF0000000000000

/-- The sign bit. -/
def f64Sign (x : DWord) : Bit := x.getLsbD 63

/-- The encoding without its sign bit, as a number; it grows with the magnitude. -/
def f64Abs (x : DWord) : Nat := x.toNat % 2 ^ 63

/-- The biased exponent field. -/
def f64Exponent (x : DWord) : Nat := f64Abs x / 2 ^ 52

/-- The fraction field. -/
def f64Fraction (x : DWord) : Nat := x.toNat % 2 ^ 52

/-- x is a NaN. -/
def f64IsNaN (x : DWord) : Bool := decide (infinityBits < f64Abs x)

/-- x is an infinity. -/
def f64IsInf (x : DWord) : Bool := decide (f64Abs x = infinityBits)

/-- x is a zero. -/
def f64IsZero (x : DWord) : Bool := decide (f64Abs x = 0)

/-- The magnitude of a finite x in units of 2^-1074. -/
def f64Units (x : DWord) : Nat :=
  if f64Exponent x = 0 then f64Fraction x else (2 ^ 52 + f64Fraction x) * 2 ^ (f64Exponent x - 1)

/-- The exact value of a finite x in units of 2^-1074. -/
def f64Value (x : DWord) : Int := if f64Sign x then -(f64Units x : Int) else (f64Units x : Int)

/-- `n / d` rounded to the nearest whole number, a tie to the even one. -/
def roundHalfEven (n d : Nat) : Nat :=
  if 2 * (n % d) < d ∨ (2 * (n % d) = d ∧ (n / d) % 2 = 0) then n / d else n / d + 1

/-- The binade of a magnitude of q whole units: units are dropped in groups of 2^binade so that 53 bits remain. -/
def binade (q : Nat) : Nat := Nat.log2 q - 52

/-- The encoding, sign 0, of the magnitude `n / d` units rounded to nearest, ties to even; infinity on overflow. The
exponent and fraction fields join so that a carry out of the fraction raises the exponent. -/
def roundUnits (n d : Nat) : Nat :=
  let k := binade (n / d)
  min (k * 2 ^ 52 + roundHalfEven n (d * 2 ^ k)) infinityBits

/-- The encoding with the given sign and sign-less encoding. -/
def f64Pack (sign : Bit) (abs : Nat) : DWord :=
  BitVec.ofNat 64 ((if sign then 2 ^ 63 else 0) + abs)

/-- A quiet NaN for an operation on these operands: which one is free (notes/assumptions/11.md). -/
def f64NaN (x y : DWord) : DWord := Config.nanBits x y ||| 0x7FF8000000000000#64

/-- `f64(n)`: the natural number n as binary64, exact below 2^53 (R11). -/
def f64OfNat (n : Nat) : DWord := f64Pack false (roundUnits (n * unitsPerOne) 1)

/-- `fmul` (R11). -/
def fmul (x y : DWord) : DWord :=
  let sign := f64Sign x != f64Sign y
  if f64IsNaN x || f64IsNaN y then f64NaN x y
  else if f64IsInf x || f64IsInf y then
    (if f64IsZero x || f64IsZero y then f64NaN x y else f64Pack sign infinityBits)
  else f64Pack sign (roundUnits (f64Units x * f64Units y) unitsPerOne)

/-- `fdiv` (R11). -/
def fdiv (x y : DWord) : DWord :=
  let sign := f64Sign x != f64Sign y
  if f64IsNaN x || f64IsNaN y then f64NaN x y
  else if f64IsInf x then (if f64IsInf y then f64NaN x y else f64Pack sign infinityBits)
  else if f64IsInf y then f64Pack sign 0
  else if f64IsZero y then (if f64IsZero x then f64NaN x y else f64Pack sign infinityBits)
  else f64Pack sign (roundUnits (f64Units x * unitsPerOne) (f64Units y))

/-- `fsub` (R11). An exact zero difference is +0, but for (-0) - (+0) = -0. -/
def fsub (x y : DWord) : DWord :=
  let d := f64Value x - f64Value y
  if f64IsNaN x || f64IsNaN y then f64NaN x y
  else if f64IsInf x then (if f64IsInf y && (f64Sign x == f64Sign y) then f64NaN x y else f64Pack (f64Sign x) infinityBits)
  else if f64IsInf y then f64Pack (!f64Sign y) infinityBits
  else if d = 0 then f64Pack (f64IsZero x && f64Sign x && !f64Sign y) 0
  else f64Pack (decide (d < 0)) (roundUnits d.natAbs 1)

/-- a is at most -1.0 (not a NaN). -/
def f64AtMostMinusOne (a : DWord) : Bool := f64Sign a && decide (unitsPerOne ≤ f64Units a)

/-- a is at least 2^32 (not a NaN). -/
def f64AtLeastTwo32 (a : DWord) : Bool := !f64Sign a && decide (2 ^ 32 * unitsPerOne ≤ f64Units a)

/-- The magnitude of `trunc(a)`: a rounded toward zero (R11). -/
def f64TruncAbs (a : DWord) : Nat := f64Units a / unitsPerOne

end Sys2Proof.Machine
end

