-- ==== Sys2Proof/WellFormed.lean ====
section
/-! DEFINITION. The checks on the syntax: which host accesses are defined (R62), which command words software may write
(R90, R92), which polled or scheduled inputs are well formed. A command itself has no operand, so every `Instr` is
well formed; the timing check `Timing.admitted` (R133) stands in Config. -/

namespace Sys2Proof

/-- The width in bytes. -/
def Width.bytes : Width → Nat
  | .byte => 1
  | .half => 2
  | .word => 4
  | .double => 8

/-- The only defined accesses: 4 bytes at an offset that is a multiple of 4 (R62). -/
def accessDefined (off : BitVec 7) (width : Width) : Bool :=
  decide (width = .word) && decide (off.toNat % 4 = 0)

/-- An input is well formed when the access it makes, if any, is defined (R62): the "no model fault" premise of R257. -/
def Input.wellFormed : Input → Bool
  | .engineTurn => true
  | .hostRead off width => accessDefined off width
  | .hostWrite off width _ => accessDefined off width
  | .poll => true
  | .reset => true

/-- Every constructor of `Instr` stands for a legal command: it carries no operand that could be ill formed (R94). -/
def Instr.wellFormed : Instr → Bool
  | .nop | .reset | .writeBit | .readBit | .writeByte | .readByte | .readTemp | .compensate | .altitude => true

/-- A command word as software must write it: bits [31:4] zero (R90) and a legal opcode (R92). -/
def commandWordWellFormed (v : Word) : Bool :=
  decide (v.toNat / 16 = 0) && decide (v.toNat % 16 ≤ 8)

end Sys2Proof
end

