-- ==== Sys2Proof/Decode.lean ====
section
/-! DEFINITION. The decoder, total on any bytes and rejecting by name, and the encoder after it (spec/30_encoding.md R90 to R93,
R65 for the byte order of a host word). -/

namespace Sys2Proof

/-- Why bytes are no command. -/
inductive Reject where
  /-- OP is one of the reserved opcodes 0x9 to 0xF (R92). -/
  | reservedOpcode (op : BitVec 4)
  /-- The bytes are not one 32-bit word: there is no other length (R90). -/
  | notOneWord (length : Nat)
  deriving DecidableEq, Repr

/-- OP = bits [3:0] of a command word (R90). -/
def opField (v : Word) : BitVec 4 := v.extractLsb' 0 4

/-- The opcode map of R91, total over the 16 values of OP. -/
def decodeOp (op : BitVec 4) : Except Reject Instr :=
  match op.toNat with
  | 0 => .ok .nop
  | 1 => .ok .reset
  | 2 => .ok .writeBit
  | 3 => .ok .readBit
  | 4 => .ok .writeByte
  | 5 => .ok .readByte
  | 6 => .ok .readTemp
  | 7 => .ok .compensate
  | 8 => .ok .altitude
  | _ => .error (.reservedOpcode op)

/-- A command word is decoded from OP alone; bits [31:4] are ignored (R90). -/
def decode (v : Word) : Except Reject Instr := decodeOp (opField v)

/-- The word whose byte lanes 0 to 3 are the given bytes: little-endian (R65). -/
def wordOfLanes (b0 b1 b2 b3 : Byte) : Word := b3 ++ b2 ++ b1 ++ b0

/-- Byte lane j of a word: bits [8j+7:8j] (R65). -/
def lane (v : Word) (j : Nat) : Byte := v.extractLsb' (8 * j) 8

/-- The decoder on any bytes: four bytes are one command word in window order (R65), any other number is no command. -/
def decodeBytes (bytes : List Byte) : Except Reject Instr :=
  match bytes with
  | [b0, b1, b2, b3] => decode (wordOfLanes b0 b1 b2 b3)
  | bs => .error (.notOneWord bs.length)

/-- The opcode of a command (R91). -/
def Instr.opcode : Instr → BitVec 4
  | .nop => 0x0#4
  | .reset => 0x1#4
  | .writeBit => 0x2#4
  | .readBit => 0x3#4
  | .writeByte => 0x4#4
  | .readByte => 0x5#4
  | .readTemp => 0x6#4
  | .compensate => 0x7#4
  | .altitude => 0x8#4

/-- The command word of a command: OP in bits [3:0], zeros above, as software must write it (R90). -/
def encode (i : Instr) : Word := i.opcode.setWidth 32

/-- The byte lanes of a command word, lane 0 first (R65). -/
def encodeBytes (i : Instr) : List Byte :=
  [lane (encode i) 0, lane (encode i) 1, lane (encode i) 2, lane (encode i) 3]

/-- The command word that the table's number w of nbits bits stands for: every bit above nbits is 0. -/
def tableWord (nbits w : Nat) : Word := BitVec.ofNat 32 (w % 2 ^ nbits)

/-- What the decoder reads from the instruction whose bits are w: the word's four byte lanes, given to `decodeBytes`. -/
def decodeTableWord (nbits w : Nat) : Option Instr :=
  let v := tableWord nbits w
  match decodeBytes [lane v 0, lane v 1, lane v 2, lane v 3] with
  | .ok i => some i
  | .error _ => none

end Sys2Proof
end

