-- ==== Sys2Proof/Machine/State.lean ====
section
/-! DEFINITION. The state of the engine as plain data (spec/10_state.md), its reset value (R280), and the reasons a step can stop. -/

namespace Sys2Proof.Machine

/-- The eight flags of STATUS (R23). Bits [31:8] are hard-wired to 0 (R32) and have no storage. -/
structure Status where
  /-- Bit 0 (R24): a command is accepted and not completed. -/
  busy : Bit
  /-- Bit 1 (R25): the last RESET saw presence. -/
  present : Bit
  /-- Bit 2 (R26): the first reset of the last READ_TEMP saw presence. -/
  presA : Bit
  /-- Bit 3 (R27): the second reset of the last READ_TEMP saw presence. -/
  presB : Bit
  /-- Bit 4 (R28): the last compensation's divide-by-zero guard fired. -/
  divz : Bit
  /-- Bit 5 (R29): the last altitude did not convert to u32. -/
  altr : Bit
  /-- Bit 6 (R30): the last CMD write that was not dropped carried a reserved opcode. -/
  illegal : Bit
  /-- Bit 7 (R31): a CMD write was dropped since the last one that was not. -/
  ovr : Bit
  deriving DecidableEq, Repr

/-- The calibration window CAL0..CAL4 (R41). CAL4 bits [31:16] are reserved and have no storage. -/
structure CalWindow where
  /-- CAL0: calibration bytes 0..3. -/
  cal0 : Word
  /-- CAL1: bytes 4..7. -/
  cal1 : Word
  /-- CAL2: bytes 8..11. -/
  cal2 : Word
  /-- CAL3: bytes 12..15. -/
  cal3 : Word
  /-- CAL4 bits [15:0]: bytes 16 and 17. -/
  cal4 : BitVec 16
  deriving DecidableEq, Repr

/-- The operand latches `L` (R43), loaded at acceptance and read by every command in place of the live registers. -/
structure Latches where
  /-- L.op: the opcode of the accepted command. -/
  op : BitVec 4
  /-- L.txd: TXDATA[7:0]. -/
  txd : Byte
  /-- L.praw: PRAW. -/
  praw : Word
  /-- L.tfine: TFINE. -/
  tfine : Word
  /-- L.cal: the 18 calibration bytes. -/
  cal : Vector Byte 18
  deriving DecidableEq, Repr

/-- One host read and the value it returned (R95). -/
structure HostRead where
  /-- The offset read. -/
  off : BitVec 7
  /-- The value returned. -/
  value : Word
  deriving DecidableEq, Repr

/-- The whole state of the engine (R20), then what the model keeps of the engine's surroundings. -/
structure State where
  /-- CMD (R22): the stored OP, bits [3:0]. -/
  cmd : BitVec 4
  /-- STATUS (R23). -/
  status : Status
  /-- TXDATA (R33): DATA, bits [7:0]. -/
  txdata : Byte
  /-- RXDATA (R34): bits [7:0]. -/
  rxdata : Byte
  /-- SCRATCH (R35): B2 in bits [15:8], B1 in bits [7:0]. -/
  scratch : BitVec 16
  /-- TEMP (R36). -/
  temp : Word
  /-- PRAW (R37). -/
  praw : Word
  /-- TFINE (R38). -/
  tfine : Word
  /-- PRESS (R39). -/
  press : Word
  /-- ALT (R40). -/
  alt : Word
  /-- CAL0..CAL4 (R41). -/
  cal : CalWindow
  /-- The operand latches `L` (R43). -/
  latch : Latches
  /-- `E`: the event list of the running (or last) command (R44). -/
  events : List BusOp
  /-- `ev`: the event index (R44). -/
  ev : Nat
  /-- `S`: the samples taken so far, in order (R44). -/
  samples : List Bit
  /-- DRIVE: the level of the drive pin (R45). -/
  drive : Bit
  /-- `H`: the bus trace, oldest event first (R73). -/
  trace : List BusEvent
  /-- The model's own: what happens next, in order (notes/assumptions/2.md). -/
  inputs : List Input
  /-- The model's own: what answers samples (notes/assumptions/6.md). -/
  device : BusDevice
  /-- The model's own: what the host's reads returned, oldest first (notes/assumptions/4.md). -/
  readLog : List HostRead
  deriving DecidableEq, Repr

/-- Why the machine stops with a fault. -/
inductive Fault where
  /-- `ModelFault(BadAccess(addr, width))` of R62 and R257. Raised by a host access whose width is not 4 bytes or whose
  address is not a multiple of 4; `width` is in bytes. Safe: the spec gives such an access no meaning. -/
  | badAccess (addr : Nat) (width : Nat)
  /-- The engine has its turn with BUSY = 1 and a reserved opcode in the latch. No run reaches it: only legal opcodes are
  latched (R110). Raised by the engine's turn. Safe: the model stops (notes/assumptions/14.md). -/
  | reservedOpcodeLatched (op : BitVec 4)
  deriving DecidableEq, Repr

/-- Why the machine has no meaning for an instruction. -/
inductive Refusal where
  /-- An instruction without a meaning. Raised by nobody: every command of the table has its meaning. Safe. -/
  | notModelled (mnemonic : String)
  deriving DecidableEq, Repr

/-- STATUS = 0 (R280). -/
def Status.cleared : Status :=
  { busy := false, present := false, presA := false, presB := false, divz := false, altr := false, illegal := false,
    ovr := false }

/-- The calibration window at reset: all zero (R280). -/
def CalWindow.cleared : CalWindow := { cal0 := 0, cal1 := 0, cal2 := 0, cal3 := 0, cal4 := 0 }

/-- The latches at reset: all zero (R280). -/
def Latches.cleared : Latches := { op := 0, txd := 0, praw := 0, tfine := 0, cal := Vector.replicate 18 0 }

/-- The machine right after power-on reset (R280, vector R-1): every register 0, latches and sequencer clear, DRIVE
released, the trace empty. The surroundings start empty, with the free oracle (notes/assumptions/2.md, 4.md, 6.md). -/
def State.reset : State :=
  { cmd := 0, status := Status.cleared, txdata := 0, rxdata := 0, scratch := 0, temp := 0, praw := 0, tfine := 0,
    press := 0, alt := 0, cal := CalWindow.cleared, latch := Latches.cleared, events := [], ev := 0, samples := [],
    drive := true, trace := [], inputs := [], device := .free, readLog := [] }

end Sys2Proof.Machine
end

