-- ==== Sys2Proof/Machine/Operands.lean ====
section
/-! DEFINITION. Operand assembly: what acceptance latches (R43, R94), the operands each command takes from the latches, the
bytes assembled from samples (R162), and the calibration coefficients (R66, R192). -/

namespace Sys2Proof.Machine

/-- CALm as a 32-bit register, m = 0..4: CAL4's reserved bits [31:16] read 0 (R41). -/
def CalWindow.word (c : CalWindow) (m : Nat) : Word :=
  match m with
  | 0 => c.cal0
  | 1 => c.cal1
  | 2 => c.cal2
  | 3 => c.cal3
  | _ => c.cal4.setWidth 32

/-- Calibration byte k, k = 0..17: bits [8*(k mod 4)+7 : 8*(k mod 4)] of CAL(k div 4) (R41). -/
def CalWindow.byte (c : CalWindow) (k : Nat) : Byte := lane (c.word (k / 4)) (k % 4)

/-- The 18 calibration bytes of the window (R41). -/
def CalWindow.bytes (c : CalWindow) : Vector Byte 18 := Vector.ofFn (fun k => c.byte k.val)

/-- What acceptance loads into the latches (R43, R110). -/
def latchOperands (op : BitVec 4) (s : State) : Latches :=
  { op := op, txd := s.txdata, praw := s.praw, tfine := s.tfine, cal := s.cal.bytes }

/-- The operand of WRITE_BIT: bit 0 of the latched TXDATA (R94, R138). -/
def bitOperand (l : Latches) : Bit := l.txd.getLsbD 0

/-- The operand of WRITE_BYTE: the latched TXDATA[7:0] (R94, R161). -/
def byteOperand (l : Latches) : Byte := l.txd

/-- Sample `S[i]`. A command's completion reads only samples its event list has taken (notes/assumptions/13.md). -/
def sampleAt (samples : List Bit) (i : Nat) : Bit := samples.getD i false

/-- The byte of the eight samples from `S[start]` on, least-significant bit first: R162's loop
`for i in 0..7: r <- r | (s_i << i)`. -/
def byteOfSamples (samples : List Bit) (start : Nat) : Byte :=
  (List.range 8).foldl (fun r i => r ||| ((BitVec.ofBool (sampleAt samples (start + i))).setWidth 8 <<< i)) 0

/-- Field i of the calibration buffer, i = 0..8: `{byte[2i+1], byte[2i]}` (R66), from the latched bytes. -/
def calField (cal : Vector Byte 18) (i : Fin 9) : BitVec 16 :=
  cal[2 * i.val + 1] ++ cal[2 * i.val]

/-- The nine coefficients digP1..digP9, each widened to s64 (R191, R192). -/
structure Coefficients where
  /-- digP1, unsigned. -/
  p1 : DWord
  /-- digP2. -/
  p2 : DWord
  /-- digP3. -/
  p3 : DWord
  /-- digP4. -/
  p4 : DWord
  /-- digP5. -/
  p5 : DWord
  /-- digP6. -/
  p6 : DWord
  /-- digP7. -/
  p7 : DWord
  /-- digP8. -/
  p8 : DWord
  /-- digP9. -/
  p9 : DWord
  deriving DecidableEq, Repr

/-- Unpacking (R192): digP1 is zero-extended, digP2..digP9 are sign-extended (R191, C7). -/
def unpack (cal : Vector Byte 18) : Coefficients :=
  { p1 := (calField cal 0).setWidth 64, p2 := (calField cal 1).signExtend 64, p3 := (calField cal 2).signExtend 64,
    p4 := (calField cal 3).signExtend 64, p5 := (calField cal 4).signExtend 64, p6 := (calField cal 5).signExtend 64,
    p7 := (calField cal 6).signExtend 64, p8 := (calField cal 7).signExtend 64, p9 := (calField cal 8).signExtend 64 }

/-- A raw pressure or fine temperature pattern widened to s64: `sext_32` (R94, R191). -/
def sext32 (v : Word) : DWord := v.signExtend 64

end Sys2Proof.Machine
end

