-- ==== Sys2Proof/Machine/Fixed64.lean ====
section
/-! DEFINITION. The compensator's 64-bit fixed-point arithmetic (R190): two's-complement wrap-around, arithmetic right shift,
division truncating toward zero; and the compensation formula line by line (R193 to R199). -/

namespace Sys2Proof.Machine

/-- `a +64 b` (R190). -/
def add64 (a b : DWord) : DWord := a + b

/-- `a -64 b` (R190). -/
def sub64 (a b : DWord) : DWord := a - b

/-- `a *64 b` (R190). -/
def mul64 (a b : DWord) : DWord := a * b

/-- `a <<64 k = wrap64(a * 2^k)` (R190). -/
def shl64 (a : DWord) (k : Nat) : DWord := a <<< k

/-- `a >>a k = floor(a / 2^k)`: the arithmetic shift (R190, D16). -/
def sar64 (a : DWord) (k : Nat) : DWord := a.sshiftRight k

/-- `tdiv64(a, b)`: division truncated toward zero, wrapped (R190); -2^63 by -1 is -2^63 (R195). -/
def tdiv64 (a b : DWord) : DWord := a.sdiv b

/-- `low_32(p)` (R196). -/
def low32 (p : DWord) : Word := p.setWidth 32

/-- Line 1 of R193: firstConv = fine temperature - 128000. -/
def fineOffset (tfine : Word) : DWord := sub64 (sext32 tfine) 128000

/-- Lines 2 to 4 of R193: secondConv, from the v1 of line 1. -/
def numeratorOffset (v1 : DWord) (c : Coefficients) : DWord :=
  let v2 := mul64 (mul64 v1 v1) c.p6
  let v2 := add64 v2 (shl64 (mul64 v1 c.p5) 17)
  add64 v2 (shl64 c.p4 35)

/-- Lines 5 and 6 of R193: the denominator, from the v1 of line 1. -/
def denominator (v1 : DWord) (c : Coefficients) : DWord :=
  let w := add64 (sar64 (mul64 (mul64 v1 v1) c.p3) 8) (shl64 (mul64 v1 c.p2) 12)
  sar64 (mul64 (add64 (shl64 1 47) w) c.p1) 33

/-- Lines 8 and 9 of R193: the quotient, with secondConv `v2` and a denominator other than 0. -/
def quotient (praw : Word) (v2 denom : DWord) : DWord :=
  let p := sub64 1048576 (sext32 praw)
  tdiv64 (mul64 (sub64 (shl64 p 31) v2) 3125) denom

/-- Lines 10 to 12 of R193: the correction terms and the last sum, from the quotient. -/
def correction (p : DWord) (c : Coefficients) : DWord :=
  let v1 := sar64 (mul64 (mul64 c.p9 (sar64 p 13)) (sar64 p 13)) 25
  let v2 := sar64 (mul64 c.p8 p) 19
  add64 (sar64 (add64 (add64 p v1) v2) 8) (shl64 c.p7 4)

/-- `COMP(praw, tfine, c)` (R193): the compensated pressure and the guard bit. The guard (R194) fires when the
denominator is 0; the result is then the sentinel 0. -/
def comp (praw tfine : Word) (c : Vector Byte 18) : Word × Bit :=
  let k := unpack c
  let v1 := fineOffset tfine
  let d := denominator v1 k
  if d = 0 then (0, true) else (low32 (correction (quotient praw (numeratorOffset v1 k) d) k), false)

end Sys2Proof.Machine
end

