-- ==== Sys2Proof/Machine/BusLine.lean ====
section
/-! DEFINITION. What a `Sample()` returns: the bus oracle of R75 and the two test oracles of R76 (notes/assumptions/6.md). -/

namespace Sys2Proof.Machine

/-- Whether the coming sample is a reset's presence sample: the trace ends with a reset's first four events (R135). -/
def atPresenceSample (h : List BusEvent) : Bool :=
  match h.reverse with
  | .waitUs _ :: .drive true :: .waitUs _ :: .drive false :: _ => true
  | _ => false

/-- How many read slots were sampled since the last presence sample, `k` of them before this trace begins. -/
def readSlotsSinceReset (h : List BusEvent) (k : Nat) : Nat :=
  match h with
  | .drive false :: .waitUs _ :: .drive true :: .waitUs _ :: .sample _ :: rest => readSlotsSinceReset rest 0
  | .sample _ :: rest => readSlotsSinceReset rest (k + 1)
  | _ :: rest => readSlotsSinceReset rest k
  | [] => k

/-- `ECHO(w)` of R76: sample 0 at a reset, bit k of w at read slot k; past the end of w the free oracle answers. -/
def echoAnswer (w : List Bit) (h : List BusEvent) : Bit :=
  if atPresenceSample h then false else w.getD (readSlotsSinceReset h 0) (Config.oracle h)

/-- The bit the sense pin returns at a sample taken now. -/
def senseBit (s : State) : Bit :=
  match s.device with
  | .free => Config.oracle s.trace
  | .wire => s.drive
  | .echo w => echoAnswer w s.trace
  | .script [] => Config.oracle s.trace
  | .script (b :: _) => b

/-- What answers after that sample: a script has given one answer. -/
def deviceAfterSample (d : BusDevice) : BusDevice :=
  match d with
  | .free => .free
  | .wire => .wire
  | .echo w => .echo w
  | .script bs => .script bs.tail

end Sys2Proof.Machine
end

