-- ==== Sys2Proof/Machine/EventLists.lean ====
section
/-! DEFINITION. The bus sequences the commands are built from (spec/41_bus_bits.md, spec/42_byte_framer.md): the reset, the bit
slots and the byte framings, with the durations of R134 in the configuration's parameters. -/

namespace Sys2Proof.Machine

/-- P_RST1: `T_RSTL` (R134). -/
def phaseRst1 : Nat := Config.timing.timing.tRstl

/-- P_RST2: `T_RSTW + T_PDS` (R134). -/
def phaseRst2 : Nat := Config.timing.timing.tRstw + Config.timing.timing.tPds

/-- P_RST3: `T_RST - T_RSTL - T_RSTW - T_PDS` (R134). -/
def phaseRst3 : Nat :=
  Config.timing.timing.tRst - Config.timing.timing.tRstl - Config.timing.timing.tRstw - Config.timing.timing.tPds

/-- P_W1: `T_SLOT - T_W1L` (R134). -/
def phaseW1 : Nat := Config.tSlot - Config.timing.timing.tW1l

/-- P_W0: `T_W0L` (R134). -/
def phaseW0 : Nat := Config.timing.timing.tW0l

/-- P_R2: `T_RS` (R134). -/
def phaseR2 : Nat := Config.timing.timing.tRs

/-- P_R3: `T_RSLOT - T_RL - T_RS` (R134). -/
def phaseR3 : Nat := Config.timing.timing.tRslot - Config.timing.timing.tRl - Config.timing.timing.tRs

/-- `rst` (R135): 6 events, 1 sample. -/
def rst : List BusOp :=
  [.drive false, .waitUs phaseRst1, .drive true, .waitUs phaseRst2, .sample, .waitUs phaseRst3]

/-- `wbit(b)` (R137): a 1 slot releases at once and then waits, a 0 slot waits and then releases. -/
def wbit (b : Bit) : List BusOp :=
  match b with
  | true => [.drive false, .drive true, .waitUs phaseW1]
  | false => [.drive false, .waitUs phaseW0, .drive true]

/-- `rbit` (R139): 5 events, 1 sample. -/
def rbit : List BusOp :=
  [.drive false, .drive true, .waitUs phaseR2, .sample, .waitUs phaseR3]

/-- `wbyte(v)` (R160): the eight write slots of v, bit 0 first, nothing between them. -/
def wbyte (v : Byte) : List BusOp := (List.range 8).flatMap (fun i => wbit (v.getLsbD i))

/-- `rbyte` (R162): eight read slots. -/
def rbyte : List BusOp := (List.range 8).flatMap (fun _ => rbit)

/-- How many samples an event list takes. -/
def sampleCount (es : List BusOp) : Nat := es.countP (fun e => decide (e = .sample))

end Sys2Proof.Machine
end

