-- ==== Sys2Proof/Machine/Flags.lean ====
section
/-! DEFINITION. Every flag computation of the engine: the STATUS word (R23, R32), the presence detector (R136), and which flags
each event of a command's life writes (R30, R31, R42). -/

namespace Sys2Proof.Machine

/-- The STATUS word: bit 0 BUSY up to bit 7 OVR (R23), bits [31:8] hard-wired to 0 (R32). -/
def Status.toWord (f : Status) : Word :=
  (BitVec.ofBool f.ovr ++ BitVec.ofBool f.illegal ++ BitVec.ofBool f.altr ++ BitVec.ofBool f.divz ++
    BitVec.ofBool f.presB ++ BitVec.ofBool f.presA ++ BitVec.ofBool f.present ++ BitVec.ofBool f.busy).setWidth 32

/-- The presence detector (R136): 1 when the sampled bit is 0. -/
def present (s : Bit) : Bit := !s

/-- The flags at the acceptance of a legal command: ILLEGAL <- 0, OVR <- 0, BUSY <- 1 (R110). -/
def flagsAccepted (f : Status) : Status := { f with illegal := false, ovr := false, busy := true }

/-- The flags at a reserved opcode written while idle: ILLEGAL <- 1, OVR <- 0 (R111). -/
def flagsIllegal (f : Status) : Status := { f with illegal := true, ovr := false }

/-- The flags at a dropped CMD write: OVR <- 1 (R112). -/
def flagsDropped (f : Status) : Status := { f with ovr := true }

/-- The flags at a completion step: BUSY <- 0 (R114). -/
def flagsCompleted (f : Status) : Status := { f with busy := false }

end Sys2Proof.Machine
end

