-- ==== Sys2Proof/Machine/Ops.lean ====
section
/-! DEFINITION. The shared operations: the register window (spec/20_memory.md), the command lifecycle (spec/40_command.md) and reset
(spec/70_reset_and_hazards.md). The engine takes no exception and has no return from one (R250, R261). -/

namespace Sys2Proof.Machine

/-! ### The register window -/

/-- The offset of a register (R61). -/
def regOffset : Reg → BitVec 7
  | .cmd => 0x00
  | .status => 0x04
  | .txdata => 0x08
  | .rxdata => 0x0C
  | .scratch => 0x10
  | .temp => 0x14
  | .praw => 0x18
  | .tfine => 0x1C
  | .press => 0x20
  | .alt => 0x24
  | .cal0 => 0x40
  | .cal1 => 0x44
  | .cal2 => 0x48
  | .cal3 => 0x4C
  | .cal4 => 0x50

/-- The register at an offset; `none` at a reserved offset (R61, R63). -/
def regAt (off : BitVec 7) : Option Reg :=
  match off.toNat with
  | 0x00 => some .cmd
  | 0x04 => some .status
  | 0x08 => some .txdata
  | 0x0C => some .rxdata
  | 0x10 => some .scratch
  | 0x14 => some .temp
  | 0x18 => some .praw
  | 0x1C => some .tfine
  | 0x20 => some .press
  | 0x24 => some .alt
  | 0x40 => some .cal0
  | 0x44 => some .cal1
  | 0x48 => some .cal2
  | 0x4C => some .cal3
  | 0x50 => some .cal4
  | _ => none

/-- The host address of an offset (R60, R61). -/
def hostAddress (off : BitVec 7) : Nat := Config.base + off.toNat

/-- Which offset a host address names; `none` outside `[BASE, BASE + 0x80)`, which is not the engine's (R61). -/
def windowOffset (addr : Nat) : Option (BitVec 7) :=
  if Config.base ≤ addr ∧ addr < Config.base + 0x80 then some (BitVec.ofNat 7 (addr - Config.base)) else none

/-- `reg[NAME]`: every register reads as 32 bits, its reserved bits as 0 (R22, R32 to R41, R63). -/
def readReg (r : Reg) (s : State) : Word :=
  match r with
  | .cmd => s.cmd.setWidth 32
  | .status => s.status.toWord
  | .txdata => s.txdata.setWidth 32
  | .rxdata => s.rxdata.setWidth 32
  | .scratch => s.scratch.setWidth 32
  | .temp => s.temp
  | .praw => s.praw
  | .tfine => s.tfine
  | .press => s.press
  | .alt => s.alt
  | .cal0 => s.cal.cal0
  | .cal1 => s.cal.cal1
  | .cal2 => s.cal.cal2
  | .cal3 => s.cal.cal3
  | .cal4 => s.cal.cal4.setWidth 32

/-- What a host read of an aligned offset returns: the register there, or 0 at a reserved offset (R63). -/
def readOffset (off : BitVec 7) (s : State) : Word :=
  match regAt off with
  | some r => readReg r s
  | none => 0

/-- The byte at window offset `off`: lane `off mod 4` of the register at the aligned offset below it (R65). A view for
statements; the engine has no byte access (R62). -/
def windowByte (off : BitVec 7) (s : State) : Byte :=
  lane (readOffset (BitVec.ofNat 7 (4 * (off.toNat / 4))) s) (off.toNat % 4)

/-- A host write to a register other than CMD: a writable register stores its implemented bits, a read-only register
ignores the write (R33, R37, R38, R41, R64). A write to CMD is a command (R68) and stands in HostAccess.lean. -/
def writeReg (r : Reg) (v : Word) (s : State) : State :=
  match r with
  | .cmd => s
  | .status => s
  | .txdata => { s with txdata := v.setWidth 8 }
  | .rxdata => s
  | .scratch => s
  | .temp => s
  | .praw => { s with praw := v }
  | .tfine => { s with tfine := v }
  | .press => s
  | .alt => s
  | .cal0 => { s with cal := { s.cal with cal0 := v } }
  | .cal1 => { s with cal := { s.cal with cal1 := v } }
  | .cal2 => { s with cal := { s.cal with cal2 := v } }
  | .cal3 => { s with cal := { s.cal with cal3 := v } }
  | .cal4 => { s with cal := { s.cal with cal4 := v.setWidth 16 } }

/-- The host keeps what a read returned; no register changes (R68). -/
def logRead (off : BitVec 7) (s : State) : State :=
  { s with readLog := s.readLog ++ [{ off := off, value := readOffset off s }] }

/-! ### The command lifecycle -/

/-- Acceptance of a legal command, one atomic step (R110). -/
def accept (op : BitVec 4) (eventsOf : Latches → List BusOp) (s : State) : State :=
  { s with
    cmd := op
    status := flagsAccepted s.status
    latch := latchOperands op s
    events := eventsOf (latchOperands op s)
    ev := 0
    samples := [] }

/-- A reserved opcode written while idle (R111): CMD, ILLEGAL and OVR only. -/
def illegalCommand (v : Word) (s : State) : State :=
  { s with cmd := opField v, status := flagsIllegal s.status }

/-- A CMD write dropped because BUSY = 1 (R112): OVR only. -/
def dropCommand (s : State) : State := { s with status := flagsDropped s.status }

/-- The event step on event `e = E[ev]` (R113). -/
def performEvent (e : BusOp) (s : State) : State :=
  match e with
  | .drive v => { s with drive := v, trace := s.trace ++ [.drive v], ev := s.ev + 1 }
  | .waitUs d => { s with trace := s.trace ++ [.waitUs d], ev := s.ev + 1 }
  | .waitMs d => { s with trace := s.trace ++ [.waitMs d], ev := s.ev + 1 }
  | .sample =>
    { s with
      samples := s.samples ++ [senseBit s]
      trace := s.trace ++ [.sample (senseBit s)]
      device := deviceAfterSample s.device
      ev := s.ev + 1 }

/-- The completion step (R114): the command's own writes and BUSY <- 0, atomically. -/
def complete (done : Latches → List Bit → State → State) (s : State) : State :=
  { done s.latch s.samples s with status := flagsCompleted (done s.latch s.samples s).status }

/-- The lifecycle of the command with opcode `op`, event list `eventsOf` and completion `done` (R110 to R114): what the
engine does next about this command. Idle, it is accepted. While it runs, its next event or its completion step is
performed. While another command runs, it is turned away (R112). See notes/assumptions/1.md. -/
def runCommand (op : BitVec 4) (eventsOf : Latches → List BusOp) (done : Latches → List Bit → State → State)
    (s : State) : Host.Outcome State Fault Refusal :=
  if s.status.busy then
    if s.latch.op = op then
      match s.events[s.ev]? with
      | some e => .next (performEvent e s)
      | none => .next (complete done s)
    else .next (dropCommand s)
  else .next (accept op eventsOf s)

/-! ### Reset -/

/-- The events a reset adds to the trace (R281): none while idle; `Abort` while a command runs, then `Drive(1)` if the
line was held low. -/
def resetEvents (s : State) : List BusEvent :=
  if s.status.busy then (if s.drive then [.abort] else [.abort, .drive true]) else []

/-- The reset input (R280, R281): every register, latch and sequencer field takes its reset value and DRIVE is released;
the trace and the engine's surroundings go on. -/
def takeReset (s : State) : State :=
  { State.reset with
    trace := s.trace ++ resetEvents s
    inputs := s.inputs
    device := s.device
    readLog := s.readLog }

end Sys2Proof.Machine
end

