-- ==== Sys2Proof/Machine/Altitude.lean ====
section
/-! DEFINITION. ALTITUDE (spec/45_altitude.md R230 to R236). -/

namespace Sys2Proof.Machine

/-- `q = div_u(P, 25600)` (R231). -/
def pressureQuotient (press : Word) : Nat := press.toNat / 25600

/-- 1.0 as binary64. -/
def f64One : DWord := 0x3FF0000000000000#64

/-- 1013.25, exact in binary64 (R232). -/
def f64SeaLevel : DWord := 0x408FAA0000000000#64

/-- `Y`, the binary64 value nearest 0.1903 (R232). -/
def f64Power : DWord := 0x3FC85BC01A36E2EB#64

/-- 44330.0 (R232). -/
def f64Scale : DWord := 0x40E5A54000000000#64

/-- The formula of R232, in its order, on the integer quotient. -/
def altitudeOfQuotient (q : Nat) : DWord :=
  let t1 := fdiv (f64OfNat q) f64SeaLevel
  let t2 := Config.pow t1 f64Power
  let t3 := fsub f64One t2
  fmul f64Scale t3

/-- The conversion to u32 (R234): the truncated altitude with ALTR = 0, or `ALT_OOR(a)` with ALTR = 1. -/
def convertAltitude (a : DWord) : Word × Bit :=
  if f64IsNaN a || f64AtMostMinusOne a || f64AtLeastTwo32 a then (Config.altOor a, true)
  else (BitVec.ofNat 32 (f64TruncAbs a), false)

/-- `E_ALTITUDE` (R235): no bus event. -/
def eventsAltitude (_ : Latches) : List BusOp := []

/-- The altitude `a` of the latched operands: the formula runs on the sentinel too (R235, D21). -/
def altitudeOf (l : Latches) : DWord := altitudeOfQuotient (pressureQuotient (comp l.praw l.tfine l.cal).1)

/-- `Done_ALTITUDE` (R235): PRESS, DIVZ, ALT and ALTR. -/
def doneAltitude (l : Latches) (_ : List Bit) (s : State) : State :=
  { s with
    press := (comp l.praw l.tfine l.cal).1
    alt := (convertAltitude (altitudeOf l)).1
    status := { s.status with divz := (comp l.praw l.tfine l.cal).2, altr := (convertAltitude (altitudeOf l)).2 } }

/-- ALTITUDE, OP = 0x8 (R235). -/
def execAltitude (s : State) : Host.Outcome State Fault Refusal := runCommand 0x8#4 eventsAltitude doneAltitude s

end Sys2Proof.Machine
end

