-- ==== Sys2Proof/Machine/BusDriver.lean ====
section
/-! DEFINITION. The bus primitives RESET, WRITE_BIT and READ_BIT (spec/41_bus_bits.md R135, R138, R140). -/

namespace Sys2Proof.Machine

/-- `E_RESET` (R135). -/
def eventsReset (_ : Latches) : List BusOp := rst

/-- `Done_RESET` (R135): PRESENT <- present(S[0]). -/
def doneReset (_ : Latches) (samples : List Bit) (s : State) : State :=
  { s with status := { s.status with present := present (sampleAt samples 0) } }

/-- RESET, OP = 0x1 (R135). -/
def execReset (s : State) : Host.Outcome State Fault Refusal := runCommand 0x1#4 eventsReset doneReset s

/-- `E_WRITE_BIT` (R138): the slot of TXDATA bit 0 as latched. -/
def eventsWriteBit (l : Latches) : List BusOp := wbit (bitOperand l)

/-- `Done_WRITE_BIT` (R138): writes nothing. -/
def doneWriteBit (_ : Latches) (_ : List Bit) (s : State) : State := s

/-- WRITE_BIT, OP = 0x2 (R138). -/
def execWriteBit (s : State) : Host.Outcome State Fault Refusal := runCommand 0x2#4 eventsWriteBit doneWriteBit s

/-- `E_READ_BIT` (R140). -/
def eventsReadBit (_ : Latches) : List BusOp := rbit

/-- `Done_READ_BIT` (R140): RXDATA <- the sampled bit, unchanged (R141), zero-extended. -/
def doneReadBit (_ : Latches) (samples : List Bit) (s : State) : State :=
  { s with rxdata := (BitVec.ofBool (sampleAt samples 0)).setWidth 8 }

/-- READ_BIT, OP = 0x3 (R140). -/
def execReadBit (s : State) : Host.Outcome State Fault Refusal := runCommand 0x3#4 eventsReadBit doneReadBit s

end Sys2Proof.Machine
end

