-- ==== Sys2Proof/Machine/ByteFramer.lean ====
section
/-! DEFINITION. The byte framer: WRITE_BYTE and READ_BYTE (spec/42_byte_framer.md R161, R163). -/

namespace Sys2Proof.Machine

/-- `E_WRITE_BYTE` (R161): the framing of the latched byte. -/
def eventsWriteByte (l : Latches) : List BusOp := wbyte (byteOperand l)

/-- `Done_WRITE_BYTE` (R161): writes nothing. -/
def doneWriteByte (_ : Latches) (_ : List Bit) (s : State) : State := s

/-- WRITE_BYTE, OP = 0x4 (R161). -/
def execWriteByte (s : State) : Host.Outcome State Fault Refusal := runCommand 0x4#4 eventsWriteByte doneWriteByte s

/-- `E_READ_BYTE` (R163). -/
def eventsReadByte (_ : Latches) : List BusOp := rbyte

/-- `Done_READ_BYTE` (R163): RXDATA <- the assembled byte (R162), zero-extended. -/
def doneReadByte (_ : Latches) (samples : List Bit) (s : State) : State :=
  { s with rxdata := byteOfSamples samples 0 }

/-- READ_BYTE, OP = 0x5 (R163). -/
def execReadByte (s : State) : Host.Outcome State Fault Refusal := runCommand 0x5#4 eventsReadByte doneReadByte s

end Sys2Proof.Machine
end

