-- ==== Sys2Proof/Machine/Control.lean ====
section
/-! DEFINITION. NOP (spec/40_command.md R117). -/

namespace Sys2Proof.Machine

/-- `E_NOP` (R117): empty. -/
def eventsNop (_ : Latches) : List BusOp := []

/-- `Done_NOP` (R117): writes nothing. -/
def doneNop (_ : Latches) (_ : List Bit) (s : State) : State := s

/-- NOP, OP = 0x0 (R117). -/
def execNop (s : State) : Host.Outcome State Fault Refusal := runCommand 0x0#4 eventsNop doneNop s

end Sys2Proof.Machine
end

