-- ==== Sys2Proof/Machine/Pressure.lean ====
section
/-! DEFINITION. COMPENSATE (spec/44_pressure.md R197). -/

namespace Sys2Proof.Machine

/-- `E_COMPENSATE` (R197): no bus event. -/
def eventsCompensate (_ : Latches) : List BusOp := []

/-- `Done_COMPENSATE` (R197): PRESS and DIVZ from COMP on the latched operands. -/
def doneCompensate (l : Latches) (_ : List Bit) (s : State) : State :=
  { s with
    press := (comp l.praw l.tfine l.cal).1
    status := { s.status with divz := (comp l.praw l.tfine l.cal).2 } }

/-- COMPENSATE, OP = 0x7 (R197). -/
def execCompensate (s : State) : Host.Outcome State Fault Refusal :=
  runCommand 0x7#4 eventsCompensate doneCompensate s

end Sys2Proof.Machine
end

