-- ==== Sys2Proof/Machine/Temperature.lean ====
section
/-! DEFINITION. The temperature transaction READ_TEMP (spec/43_temperature.md R170 to R178). -/

namespace Sys2Proof.Machine

/-- `SKIP_ROM` (R170). -/
def skipRom : Byte := 0xCC

/-- `CONVERT` (R170). -/
def convert : Byte := 0x44

/-- `READ_SCRATCHPAD` (R170). -/
def readScratchpad : Byte := 0xBE

/-- `E_READ_TEMP` (R171): 189 events, whatever the samples say (R172). -/
def eventsReadTemp (_ : Latches) : List BusOp :=
  rst ++ wbyte skipRom ++ wbyte convert ++ [.waitMs Config.tConv]
    ++ rst ++ wbyte skipRom ++ wbyte readScratchpad ++ rbyte ++ rbyte

/-- `{b2, b1}`: the raw scratchpad, b1 the byte of S[2..9] and b2 the byte of S[10..17] (R173). -/
def rawScratchpad (samples : List Bit) : BitVec 16 := byteOfSamples samples 10 ++ byteOfSamples samples 2

/-- `q = tdiv(raw * 100, 16)` on the raw value as a signed integer, exactly (R174). -/
def scaledTemperature (raw : BitVec 16) : Int := (raw.toInt * 100).tdiv 16

/-- `Done_READ_TEMP` (R176). TEMP <- low_32(q) (R175); presence is recorded, not checked (R172, C1). -/
def doneReadTemp (_ : Latches) (samples : List Bit) (s : State) : State :=
  { s with
    scratch := rawScratchpad samples
    temp := BitVec.ofInt 32 (scaledTemperature (rawScratchpad samples))
    status := { s.status with presA := present (sampleAt samples 0), presB := present (sampleAt samples 1) } }

/-- READ_TEMP, OP = 0x6 (R176). -/
def execReadTemp (s : State) : Host.Outcome State Fault Refusal := runCommand 0x6#4 eventsReadTemp doneReadTemp s

/-- The document's 16-bit result, a view of TEMP: `T16 = sext_16(TEMP[15:0])` (R175, C4). -/
def temperature16 (s : State) : Int := (s.temp.setWidth 16).toInt

end Sys2Proof.Machine
end

