-- ==== Sys2Proof/Machine/HostAccess.lean ====
section
/-! DEFINITION. The turns a step can take: the host's accesses (R62 to R64, R68), a command write (R110 to R112), the engine's own
turn (R113, R114, R116), a poll (R96) and a reset (R281). Step.lean only chooses among them. -/

namespace Sys2Proof.Machine

/-- A host write to CMD (R110 to R112), judged for BUSY first (R259): dropped while busy, else the decoded command is
given to the engine, or its reserved opcode is recorded. -/
def commandWrite (v : Word) (s : State) : Host.Outcome State Fault Refusal :=
  if s.status.busy then .next (dropCommand s)
  else
    match decode v with
    | .ok i => exec i s
    | .error _ => .next (illegalCommand v s)

/-- The model fault of an undefined access (R62, R257). -/
def badAccess (off : BitVec 7) (width : Width) : Host.Outcome State Fault Refusal :=
  .fault (.badAccess (hostAddress off) width.bytes)

/-- `MemRead(BASE + off, width)` (R62). -/
def hostRead (off : BitVec 7) (width : Width) (s : State) : Host.Outcome State Fault Refusal :=
  if accessDefined off width then .next (logRead off s) else badAccess off width

/-- `MemWrite(BASE + off, width, v)` (R62): a command at CMD, a stored value at a writable register, ignored at a
read-only register (R64) or a reserved offset (R63). -/
def hostWrite (off : BitVec 7) (width : Width) (v : Word) (s : State) : Host.Outcome State Fault Refusal :=
  if accessDefined off width then
    match regAt off with
    | some .cmd => commandWrite v s
    | some r => .next (writeReg r v s)
    | none => .next s
  else badAccess off width

/-- The engine's turn: an event or completion step of the running command (R113, R114), and no change while idle
(R116). -/
def engineTurn (s : State) : Host.Outcome State Fault Refusal :=
  if s.status.busy then
    match decodeOp s.latch.op with
    | .ok i => exec i s
    | .error _ => .fault (.reservedOpcodeLatched s.latch.op)
  else .next s

/-- One round of `POLL` (R96): the host reads STATUS; while it reads BUSY = 1 it polls again, the engine moving in
between (notes/assumptions/3.md). -/
def hostPoll (s : State) : State :=
  let t := logRead (regOffset .status) s
  if s.status.busy then { t with inputs := .engineTurn :: .poll :: s.inputs } else t

/-- What one input does (R70: one at a time, each atomic). -/
def takeInput (i : Input) (s : State) : Host.Outcome State Fault Refusal :=
  match i with
  | .engineTurn => engineTurn s
  | .hostRead off width => hostRead off width s
  | .hostWrite off width v => hostWrite off width v s
  | .poll => .next (hostPoll s)
  | .reset => .next (takeReset s)

/-- The platform brings an access to the engine by its host address; an address outside the window is not the
engine's and adds nothing (R61). -/
def addressedInput (addr : Nat) (access : BitVec 7 → Input) : List Input :=
  match windowOffset addr with
  | some off => [access off]
  | none => []

end Sys2Proof.Machine
end

