-- ==== Sys2Proof/Machine/Step.lean ====
section
/-! DEFINITION. One atomic step of the machine: the next input is taken; with none left, the engine has its turn. -/

namespace Sys2Proof.Machine

/-- One step (R70, R71): the first input leaves the list and acts; with no input left the engine moves, which is the
weak fairness of R118 (notes/assumptions/2.md). -/
def step (s : State) : Host.Outcome State Fault Refusal :=
  match s.inputs with
  | [] => engineTurn s
  | i :: rest => takeInput i { s with inputs := rest }

/-- The state whose very next step runs the command word w: the host writes it to CMD next, while the engine is idle
(notes/assumptions/15.md). -/
def State.withFetchWord (s : State) (nbits w : Nat) : State :=
  { s with
    inputs := .hostWrite (regOffset .cmd) .word (tableWord nbits w) :: s.inputs
    status := flagsCompleted s.status }

end Sys2Proof.Machine
end

