-- ==== Sys2Proof/Machine/HostNotation.lean ====
section
/-! DEFINITION. The host notation of spec/30_encoding.md R95 and R96: what each instruction of a host program adds to the inputs.
A program is the list of its accesses; its end is its last instruction (R97). -/

namespace Sys2Proof.Machine

/-- `WR REG, v` (R95). -/
def hostWr (r : Reg) (v : Word) : List Input := [.hostWrite (regOffset r) .word v]

/-- `RD REG` (R95). -/
def hostRd (r : Reg) : List Input := [.hostRead (regOffset r) .word]

/-- `CMD MN` (R96). -/
def hostCmd (i : Instr) : List Input := hostWr .cmd (encode i)

/-- `RUN MN` (R96): the command, then `POLL`. -/
def hostRun (i : Instr) : List Input := hostCmd i ++ [.poll]

/-- `SEND byte` (R96). -/
def hostSend (b : Byte) : List Input := hostWr .txdata (b.setWidth 32) ++ hostRun .writeByte

/-- `SENDBIT b` (R96). -/
def hostSendBit (b : Bit) : List Input := hostWr .txdata ((BitVec.ofBool b).setWidth 32) ++ hostRun .writeBit

/-- `SETCAL c0, ..., c17` (R96): five words, byte k in lane k mod 4 of CAL(k div 4). -/
def hostSetCal (cal : Vector Byte 18) : List Input :=
  hostWr .cal0 (wordOfLanes cal[0] cal[1] cal[2] cal[3]) ++ hostWr .cal1 (wordOfLanes cal[4] cal[5] cal[6] cal[7])
    ++ hostWr .cal2 (wordOfLanes cal[8] cal[9] cal[10] cal[11]) ++ hostWr .cal3 (wordOfLanes cal[12] cal[13] cal[14] cal[15])
    ++ hostWr .cal4 (wordOfLanes cal[16] cal[17] 0 0)

/-- The 18 bytes of nine coefficient patterns: `c(2i-2) = low_8(p_i)`, `c(2i-1) = low_8(p_i div 256)` (R96). -/
def coefficientBytes (p : Vector (BitVec 16) 9) : Vector Byte 18 :=
  Vector.ofFn (fun k => p[k.val / 2].extractLsb' (8 * (k.val % 2)) 8)

/-- `SETP p1, ..., p9` (R96). -/
def hostSetP (p : Vector (BitVec 16) 9) : List Input := hostSetCal (coefficientBytes p)

end Sys2Proof.Machine
end

