-- ==== Sys2Proof/Safety.lean ====
section
/-! DEFINITION. What counts as a good state and a safe run, in the terms the statements use: the event list and completion of each
command, the invariant of the machine, the premise that the coming accesses are defined (R257), and runs of several steps. -/

namespace Sys2Proof.Machine

/-- `E_op(L)` of every command (R113). -/
def eventList : Instr → Latches → List BusOp
  | .nop => eventsNop
  | .reset => eventsReset
  | .writeBit => eventsWriteBit
  | .readBit => eventsReadBit
  | .writeByte => eventsWriteByte
  | .readByte => eventsReadByte
  | .readTemp => eventsReadTemp
  | .compensate => eventsCompensate
  | .altitude => eventsAltitude

/-- `Done_op(L, S)` of every command (R114). -/
def doneOf : Instr → Latches → List Bit → State → State
  | .nop => doneNop
  | .reset => doneReset
  | .writeBit => doneWriteBit
  | .readBit => doneReadBit
  | .writeByte => doneWriteByte
  | .readByte => doneReadByte
  | .readTemp => doneReadTemp
  | .compensate => doneCompensate
  | .altitude => doneAltitude

/-- The drive level after the given events, from the given level. -/
def driveAfter (es : List BusOp) (v : Bit) : Bit :=
  match es with
  | [] => v
  | .drive w :: rest => driveAfter rest w
  | .waitUs _ :: rest => driveAfter rest v
  | .waitMs _ :: rest => driveAfter rest v
  | .sample :: rest => driveAfter rest v

/-- The trace that the given events leave when their samples return the given bits (R113). -/
def performed (es : List BusOp) (samples : List Bit) : List BusEvent :=
  match es, samples with
  | [], _ => []
  | .drive v :: rest, ss => .drive v :: performed rest ss
  | .waitUs d :: rest, ss => .waitUs d :: performed rest ss
  | .waitMs d :: rest, ss => .waitMs d :: performed rest ss
  | .sample :: rest, b :: ss => .sample b :: performed rest ss
  | .sample :: rest, [] => performed rest []

/-- What every reachable state satisfies. -/
structure State.Inv (s : State) : Prop where
  /-- `0 <= ev <= length(E)` (R44). -/
  evInRange : s.ev ≤ s.events.length
  /-- S holds the samples of the events performed so far (R44). -/
  samplesCounted : s.samples.length = sampleCount (s.events.take s.ev)
  /-- A running command is a legal one, CMD holds its opcode, and E is its event list (R110, R112, R113). -/
  running : s.status.busy = true →
    s.cmd = s.latch.op ∧ ∃ i, decodeOp s.latch.op = .ok i ∧ s.events = eventList i s.latch
  /-- While a command runs, the trace ends with its events performed so far, in order (R74). -/
  contiguous : s.status.busy = true → ∃ before, s.trace = before ++ performed (s.events.take s.ev) s.samples
  /-- While a command runs, DRIVE is what its events made of the released line (R45, R142). -/
  driven : s.status.busy = true → s.drive = driveAfter (s.events.take s.ev) true
  /-- The line is released while idle (R116, R142). -/
  released : s.status.busy = false → s.drive = true
  /-- An idle sequencer stands at the end of its list (R114, R280). -/
  finished : s.status.busy = false → s.ev = s.events.length
  /-- ILLEGAL tells whether CMD holds a reserved opcode (R22, R30). -/
  illegalOpcode : s.status.illegal = decide (8 < s.cmd.toNat)
  /-- DIVZ = 1 says that PRESS holds the sentinel 0 (R28). -/
  sentinel : s.status.divz = true → s.press = 0
  /-- TEMP is the scaled raw value that SCRATCH holds (R35, R36). -/
  scaled : s.temp = BitVec.ofInt 32 (scaledTemperature s.scratch)

/-- Command i is the running one: accepted and not completed (R24, R43). -/
def runs (i : Instr) (s : State) : Prop := s.status.busy = true ∧ s.latch.op = i.opcode

/-- Every event of the list has been performed: the completion step is next (R114). -/
def atEnd (s : State) : Prop := s.events.length ≤ s.ev

/-- k steps, stopping at the first fault or refusal: what Host.Core.run does on this machine. -/
def stepMany (k : Nat) (s : State) : Host.Outcome State Fault Refusal :=
  match k with
  | 0 => .next s
  | k + 1 =>
    match step s with
    | .next t => stepMany k t
    | .fault f => .fault f
    | .refused r => .refused r

/-- Every access still to come is defined (R62). -/
def inputsDefined (s : State) : Prop := ∀ i ∈ s.inputs, i.wellFormed = true

/-- A host program has ended: no input is left and the engine is idle (R97). -/
def programEnded (s : State) : Prop := s.inputs = [] ∧ s.status.busy = false

end Sys2Proof.Machine
end

