-- ==== Sys2Proof/Certificates/Slice0/Obligations.lean ====
section
/-! DEFINITION. The statements about the engine, and the spec's formulas they are stated with, written out here from the rules so
that a statement does not lean on the model's own helper where the rule gives the words. -/

namespace Sys2Proof.Statement

open Sys2Proof Sys2Proof.Machine

/-- The configuration's parameters (R7). -/
abbrev par : Timing := Config.timing.timing

/-- The state after the acceptance of command i with event list es (R110): CMD, ILLEGAL, OVR, BUSY, the latches and the
sequencer change, nothing else. -/
def acceptedState (i : Instr) (es : List BusOp) (s : State) : State :=
  { s with
    cmd := i.opcode
    status := { s.status with illegal := false, ovr := false, busy := true }
    latch := { op := i.opcode, txd := s.txdata, praw := s.praw, tfine := s.tfine, cal := s.cal.bytes }
    events := es
    ev := 0
    samples := [] }

/-- `s` with BUSY = 0. -/
def idleState (s : State) : State := { s with status := { s.status with busy := false } }

/-- The reset sequence as R135 prints it. -/
def resetSequence : List BusOp :=
  [.drive false, .waitUs par.tRstl, .drive true, .waitUs (par.tRstw + par.tPds), .sample,
    .waitUs (par.tRst - par.tRstl - par.tRstw - par.tPds)]

/-- The write slot of one bit as R137 prints it. -/
def writeSlot (b : Bit) : List BusOp :=
  if b then [.drive false, .drive true, .waitUs (60 - par.tW1l)]
  else [.drive false, .waitUs par.tW0l, .drive true]

/-- The read slot as R139 prints it. -/
def readSlot : List BusOp :=
  [.drive false, .drive true, .waitUs par.tRs, .sample, .waitUs (par.tRslot - par.tRl - par.tRs)]

/-- The eight write slots of a byte, bit 0 first (R160). -/
def writeSlots (v : Byte) : List BusOp :=
  writeSlot v[0] ++ writeSlot v[1] ++ writeSlot v[2] ++ writeSlot v[3] ++ writeSlot v[4] ++ writeSlot v[5]
    ++ writeSlot v[6] ++ writeSlot v[7]

/-- Eight read slots (R162). -/
def readSlots : List BusOp :=
  readSlot ++ readSlot ++ readSlot ++ readSlot ++ readSlot ++ readSlot ++ readSlot ++ readSlot

/-- The transaction of READ_TEMP as R171 prints it. -/
def temperatureSequence : List BusOp :=
  resetSequence ++ writeSlots 0xCC ++ writeSlots 0x44 ++ [.waitMs 750] ++ resetSequence ++ writeSlots 0xCC
    ++ writeSlots 0xBE ++ readSlots ++ readSlots

/-- `sum over i of s_i * 2^i` (R162). -/
def bitSum (b0 b1 b2 b3 b4 b5 b6 b7 : Bit) : Nat :=
  b0.toNat + 2 * b1.toNat + 4 * b2.toNat + 8 * b3.toNat + 16 * b4.toNat + 32 * b5.toNat + 64 * b6.toNat
    + 128 * b7.toNat

/-- The bits of a byte, bit 0 first (R165). -/
def bitsOf (v : Byte) : List Bit := [v[0], v[1], v[2], v[3], v[4], v[5], v[6], v[7]]

/-- `wrap64(x)`: the s64 congruent to x modulo 2^64 (R10). -/
def wrap64 (x : Int) : Int := x.bmod (2 ^ 64)

/-- `sext_16` of a number (R10). -/
def sext16 (x : Nat) : Int := (x : Int).bmod (2 ^ 16)

/-- `a >>a k = floor(a / 2^k)` (R10). -/
def floorShift (a : Int) (k : Nat) : Int := a.fdiv (2 ^ k)

/-- Lines 2 to 4 of R193 on whole numbers, from firstConv v1. -/
def secondConvInt (v1 p4 p5 p6 : Int) : Int :=
  wrap64 (wrap64 (wrap64 (wrap64 (v1 * v1) * p6) + wrap64 (wrap64 (v1 * p5) * 2 ^ 17)) + wrap64 (p4 * 2 ^ 35))

/-- Lines 5 and 6 of R193 on whole numbers, from firstConv v1. -/
def denominatorInt (v1 p1 p2 p3 : Int) : Int :=
  floorShift
    (wrap64 (wrap64 (2 ^ 47
      + wrap64 (floorShift (wrap64 (wrap64 (v1 * v1) * p3)) 8 + wrap64 (wrap64 (v1 * p2) * 2 ^ 12))) * p1))
    33

/-- Lines 8 and 9 of R193 on whole numbers. -/
def quotientInt (praw v2 d : Int) : Int :=
  wrap64 ((wrap64 (wrap64 (wrap64 (wrap64 (1048576 - praw) * 2 ^ 31) - v2) * 3125)).tdiv d)

/-- Lines 10 to 12 of R193 on whole numbers, from the quotient p. -/
def correctionInt (p p7 p8 p9 : Int) : Int :=
  wrap64
    (floorShift
      (wrap64 (wrap64 (p + floorShift (wrap64 (wrap64 (p9 * floorShift p 13) * floorShift p 13)) 25)
        + floorShift (wrap64 (p8 * p)) 19))
      8
      + wrap64 (p7 * 2 ^ 4))

/-- `COMP` of R193 on whole numbers: the u32 result and the guard. -/
def compInt (praw tfine p1 p2 p3 p4 p5 p6 p7 p8 p9 : Int) : Int × Bool :=
  if denominatorInt (wrap64 (tfine - 128000)) p1 p2 p3 = 0 then (0, true)
  else
    (correctionInt
      (quotientInt praw (secondConvInt (wrap64 (tfine - 128000)) p4 p5 p6)
        (denominatorInt (wrap64 (tfine - 128000)) p1 p2 p3)) p7 p8 p9 % 2 ^ 32, false)

/-- The 16-bit number `{byte[2i+1], byte[2i]}` of the calibration buffer (R66). -/
def field (cal : Vector Byte 18) (i : Fin 9) : Nat := cal[2 * i.val].toNat + 256 * cal[2 * i.val + 1].toNat

/-- The nominal microseconds an event list waits (R291). -/
def waitTotalUs (es : List BusOp) : Nat :=
  match es with
  | [] => 0
  | .waitUs d :: rest => d + waitTotalUs rest
  | .waitMs _ :: rest => waitTotalUs rest
  | .drive _ :: rest => waitTotalUs rest
  | .sample :: rest => waitTotalUs rest

/-- The milliseconds an event list waits (R291). -/
def waitTotalMs (es : List BusOp) : Nat :=
  match es with
  | [] => 0
  | .waitMs d :: rest => d + waitTotalMs rest
  | .waitUs _ :: rest => waitTotalMs rest
  | .drive _ :: rest => waitTotalMs rest
  | .sample :: rest => waitTotalMs rest

/-- The number of 1 bits of a byte (R291). -/
def ones (v : Byte) : Nat := bitSum v[0] false false false false false false false + v[1].toNat + v[2].toNat
  + v[3].toNat + v[4].toNat + v[5].toNat + v[6].toNat + v[7].toNat

/-- An event without the bit a sample returned. -/
def shape (e : BusEvent) : BusEvent :=
  match e with
  | .sample _ => .sample false
  | .drive v => .drive v
  | .waitUs d => .waitUs d
  | .waitMs d => .waitMs d
  | .abort => .abort

/-- A finite value that is not negative: exponent field below all ones, sign 0. -/
def finitePositive (y : DWord) : Prop := f64Abs y < infinityBits ∧ f64Sign y = false

/-- The encoding is that of a finite value: its exponent field (bits [62:52]) is not all ones. -/
def isFinite (x : DWord) : Prop := x.toNat / 2 ^ 52 % 2 ^ 11 ≠ 2 ^ 11 - 1

/-- The sign bit (bit 63) is 1. -/
def isNegative (x : DWord) : Prop := x.toNat / 2 ^ 63 = 1

/-- The magnitude of a finite encoding in units of 2^-1074, from its fields: the fraction alone when the exponent field is
0, else the fraction with its leading 1, scaled by the exponent. -/
def magnitude (x : DWord) : Nat :=
  if x.toNat / 2 ^ 52 % 2 ^ 11 = 0 then x.toNat % 2 ^ 52
  else (2 ^ 52 + x.toNat % 2 ^ 52) * 2 ^ (x.toNat / 2 ^ 52 % 2 ^ 11 - 1)

/-- The value of a finite encoding in units of 2^-1074. -/
def valueOf (x : DWord) : Int := if x.toNat / 2 ^ 63 = 1 then -(magnitude x : Int) else magnitude x

/-- The distance of y's magnitude from `n / d` units of 2^-1074, times d. -/
def distance (y : DWord) (n d : Nat) : Nat := ((magnitude y * d : Int) - n).natAbs

/-- r is the magnitude `n / d` units rounded to nearest, ties to even: below half a step past the largest finite value a
finite r that no finite encoding is nearer than, with an even encoding if another one is as near; from there on infinity. -/
def roundsTo (n d : Nat) (r : DWord) : Prop :=
  (n < d * ((2 ^ 54 - 1) * 2 ^ 2044) →
    isFinite r ∧ ∀ y, isFinite y → distance r n d ≤ distance y n d ∧
      (distance r n d = distance y n d → magnitude y ≠ magnitude r → r.toNat % 2 = 0)) ∧
  (d * ((2 ^ 54 - 1) * 2 ^ 2044) ≤ n → r.toNat % 2 ^ 63 = 0x7FF0000000000000)

/-- STATUS as the number its flag bits make: bit 0 BUSY up to bit 7 OVR, bits [31:8] zero (R23, R32). -/
def statusNumber (f : Status) : Nat :=
  bitSum f.busy f.present f.presA f.presB f.divz f.altr f.illegal f.ovr

/-- What a 32-bit read returns at each offset, as a number (R61). A register narrower than 32 bits reads as the number its
implemented bits make, so its reserved bits read 0: CMD [31:4] (R22), TXDATA [31:8] (R33), RXDATA [31:8] (R34),
SCRATCH [31:16] (R35), CAL4 [31:16] (R41). Every other offset is reserved and reads 0 (R63). -/
def windowNumber (off : Nat) (s : State) : Nat :=
  match off with
  | 0x00 => s.cmd.toNat
  | 0x04 => statusNumber s.status
  | 0x08 => s.txdata.toNat
  | 0x0C => s.rxdata.toNat
  | 0x10 => s.scratch.toNat
  | 0x14 => s.temp.toNat
  | 0x18 => s.praw.toNat
  | 0x1C => s.tfine.toNat
  | 0x20 => s.press.toNat
  | 0x24 => s.alt.toNat
  | 0x40 => s.cal.cal0.toNat
  | 0x44 => s.cal.cal1.toNat
  | 0x48 => s.cal.cal2.toNat
  | 0x4C => s.cal.cal3.toNat
  | 0x50 => s.cal.cal4.toNat
  | _ => 0

/-- `t1` of R232, from the compensated pressure: the integer quotient of R231, as binary64, divided by 1013.25. -/
def pressureRatio (press : Word) : DWord := fdiv (f64OfNat (press.toNat / 25600)) 0x408FAA0000000000#64

/-- `a` of R232 with the power function `pow`, from the compensated pressure. -/
def altitudeValue (pow : DWord → DWord → DWord) (press : Word) : DWord :=
  fmul 0x40E5A54000000000#64 (fsub 0x3FF0000000000000#64 (pow (pressureRatio press) 0x3FC85BC01A36E2EB#64))

end Sys2Proof.Statement

open Sys2Proof Sys2Proof.Machine Sys2Proof.Statement

/-! ### The nine commands: acceptance and completion -/

/-- R117. -/
def Obligations.NopAcceptsAndCompletes : Prop :=
  ∀ s : State,
    (s.status.busy = false → exec .nop s = .next (acceptedState .nop [] s)) ∧
    (runs .nop s → atEnd s → exec .nop s = .next (idleState s))

/-- R135, R136. -/
def Obligations.ResetReportsPresence : Prop :=
  ∀ s : State,
    (s.status.busy = false → exec .reset s = .next (acceptedState .reset resetSequence s)) ∧
    (∀ b, runs .reset s → atEnd s → s.samples = [b] →
      exec .reset s = .next { s with status := { s.status with present := !b, busy := false } })

/-- R137, R138. -/
def Obligations.WriteBitSendsBitZero : Prop :=
  ∀ s : State,
    (s.status.busy = false → exec .writeBit s = .next (acceptedState .writeBit (writeSlot s.txdata[0]) s)) ∧
    (runs .writeBit s → atEnd s → exec .writeBit s = .next (idleState s))

/-- R139, R140, R141. -/
def Obligations.ReadBitReturnsSample : Prop :=
  ∀ s : State,
    (s.status.busy = false → exec .readBit s = .next (acceptedState .readBit readSlot s)) ∧
    (∀ b, runs .readBit s → atEnd s → s.samples = [b] →
      exec .readBit s = .next { idleState s with rxdata := if b then 1 else 0 })

/-- R160, R161. -/
def Obligations.WriteByteSendsEightSlots : Prop :=
  ∀ s : State,
    (s.status.busy = false → exec .writeByte s = .next (acceptedState .writeByte (writeSlots s.txdata) s)) ∧
    (runs .writeByte s → atEnd s → exec .writeByte s = .next (idleState s))

/-- R162, R163. -/
def Obligations.ReadByteAssemblesSamples : Prop :=
  ∀ s : State,
    (s.status.busy = false → exec .readByte s = .next (acceptedState .readByte readSlots s)) ∧
    (∀ b0 b1 b2 b3 b4 b5 b6 b7, runs .readByte s → atEnd s → s.samples = [b0, b1, b2, b3, b4, b5, b6, b7] →
      exec .readByte s
        = .next { idleState s with rxdata := BitVec.ofNat 8 (bitSum b0 b1 b2 b3 b4 b5 b6 b7) })

/-- R171 to R176. -/
def Obligations.ReadTempScalesRawValue : Prop :=
  ∀ s : State,
    (s.status.busy = false → exec .readTemp s = .next (acceptedState .readTemp temperatureSequence s)) ∧
    (∀ pa pb a0 a1 a2 a3 a4 a5 a6 a7 b0 b1 b2 b3 b4 b5 b6 b7, runs .readTemp s → atEnd s →
      s.samples = [pa, pb, a0, a1, a2, a3, a4, a5, a6, a7, b0, b1, b2, b3, b4, b5, b6, b7] →
      exec .readTemp s = .next
        { s with
          scratch := BitVec.ofNat 16 (bitSum a0 a1 a2 a3 a4 a5 a6 a7 + 256 * bitSum b0 b1 b2 b3 b4 b5 b6 b7)
          temp := BitVec.ofInt 32
            ((sext16 (bitSum a0 a1 a2 a3 a4 a5 a6 a7 + 256 * bitSum b0 b1 b2 b3 b4 b5 b6 b7) * 100).tdiv 16)
          status := { s.status with presA := !pa, presB := !pb, busy := false } })

/-- R197. -/
def Obligations.CompensateWritesPressure : Prop :=
  ∀ s : State,
    (s.status.busy = false → exec .compensate s = .next (acceptedState .compensate [] s)) ∧
    (runs .compensate s → atEnd s → exec .compensate s = .next
      { s with
        press := (comp s.latch.praw s.latch.tfine s.latch.cal).1
        status := { s.status with divz := (comp s.latch.praw s.latch.tfine s.latch.cal).2, busy := false } })

/-- R231, R232, R235. -/
def Obligations.AltitudeWritesResults : Prop :=
  ∀ s : State,
    (s.status.busy = false → exec .altitude s = .next (acceptedState .altitude [] s)) ∧
    (∀ p g, runs .altitude s → atEnd s → comp s.latch.praw s.latch.tfine s.latch.cal = (p, g) →
      exec .altitude s = .next
        { s with
          press := p
          alt := (convertAltitude (altitudeValue Config.pow p)).1
          status :=
            { s.status with divz := g, altr := (convertAltitude (altitudeValue Config.pow p)).2, busy := false } })

/-- R113, for every command. In the sample clause, what `device` becomes (a script has given one of its answers, any other
device stays) is the model's choice, as is the device itself (notes/assumptions/6.md). -/
def Obligations.EventStepPerformsOneEvent : Prop :=
  ∀ (i : Instr) (s : State), runs i s →
    (∀ v, s.events[s.ev]? = some (.drive v) →
      exec i s = .next { s with drive := v, trace := s.trace ++ [.drive v], ev := s.ev + 1 }) ∧
    (∀ d, s.events[s.ev]? = some (.waitUs d) →
      exec i s = .next { s with trace := s.trace ++ [.waitUs d], ev := s.ev + 1 }) ∧
    (∀ d, s.events[s.ev]? = some (.waitMs d) →
      exec i s = .next { s with trace := s.trace ++ [.waitMs d], ev := s.ev + 1 }) ∧
    (s.events[s.ev]? = some .sample →
      exec i s = .next
        { s with
          samples := s.samples ++ [senseBit s]
          trace := s.trace ++ [.sample (senseBit s)]
          device := deviceAfterSample s.device
          ev := s.ev + 1 })

/-- R42: what a completion step leaves unchanged, command by command. -/
def Obligations.CompletionWriteSets : Prop :=
  ∀ (i : Instr) (s : State), runs i s → atEnd s →
    ∃ t, exec i s = .next t ∧ t.status.busy = false ∧
      (i ≠ .readBit → i ≠ .readByte → t.rxdata = s.rxdata) ∧
      (i ≠ .readTemp → t.scratch = s.scratch ∧ t.temp = s.temp ∧ t.status.presA = s.status.presA ∧
        t.status.presB = s.status.presB) ∧
      (i ≠ .compensate → i ≠ .altitude → t.press = s.press ∧ t.status.divz = s.status.divz) ∧
      (i ≠ .altitude → t.alt = s.alt ∧ t.status.altr = s.status.altr) ∧
      (i ≠ .reset → t.status.present = s.status.present) ∧
      t.cmd = s.cmd ∧ t.txdata = s.txdata ∧ t.praw = s.praw ∧ t.tfine = s.tfine ∧ t.cal = s.cal ∧
      t.status.illegal = s.status.illegal ∧ t.status.ovr = s.status.ovr ∧
      t.latch = s.latch ∧ t.events = s.events ∧ t.ev = s.ev ∧ t.samples = s.samples ∧
      t.drive = s.drive ∧ t.trace = s.trace ∧ t.inputs = s.inputs ∧ t.device = s.device ∧ t.readLog = s.readLog

/-- The model's choice (notes/assumptions/1.md): a command given to the engine while another one runs is turned away as
R112 turns away a CMD write. -/
def Obligations.OtherCommandIsTurnedAway : Prop :=
  ∀ (i : Instr) (s : State), s.status.busy = true → s.latch.op ≠ i.opcode →
    exec i s = .next { s with status := { s.status with ovr := true } }

/-! ### Steps: what reaches the engine -/

/-- A step runs the decoded command: a command word the host writes while the engine is idle, and the latched command
while it runs. What comes next stands in the model's own list `inputs` (notes/assumptions/2.md). -/
def Obligations.StepRunsDecodedCommand : Prop :=
  ∀ (s : State) (i : Instr) (rest : List Input),
    (∀ v, s.inputs = .hostWrite 0x00 .word v :: rest → s.status.busy = false → decode v = .ok i →
      step s = exec i { s with inputs := rest }) ∧
    (s.inputs = .engineTurn :: rest → s.status.busy = true → decodeOp s.latch.op = .ok i →
      step s = exec i { s with inputs := rest }) ∧
    (s.inputs = [] → s.status.busy = true → decodeOp s.latch.op = .ok i → step s = exec i s)

/-- The word placed by withFetchWord is the one the very next step runs; that it stands for a host write to CMD while idle
is the model's choice (notes/assumptions/15.md). -/
def Obligations.FetchedWordRunsNext : Prop :=
  ∀ (s : State) (nbits w : Nat) (i : Instr), decodeTableWord nbits w = some i →
    step (s.withFetchWord nbits w) = exec i (idleState s)

/-- R110. -/
def Obligations.LegalCommandIsAccepted : Prop :=
  ∀ (s : State) (i : Instr) (v : Word) (rest : List Input),
    s.inputs = .hostWrite 0x00 .word v :: rest → s.status.busy = false → v.toNat % 16 = i.opcode.toNat →
    step s = .next
      (acceptedState i
        (eventList i { op := i.opcode, txd := s.txdata, praw := s.praw, tfine := s.tfine, cal := s.cal.bytes })
        { s with inputs := rest })

/-- R111. -/
def Obligations.ReservedOpcodeSetsIllegal : Prop :=
  ∀ (s : State) (v : Word) (rest : List Input),
    s.inputs = .hostWrite 0x00 .word v :: rest → s.status.busy = false → 9 ≤ v.toNat % 16 →
    step s = .next
      { s with
        inputs := rest
        cmd := BitVec.ofNat 4 (v.toNat % 16)
        status := { s.status with illegal := true, ovr := false } }

/-- R112. -/
def Obligations.BusyCommandWriteIsDropped : Prop :=
  ∀ (s : State) (v : Word) (rest : List Input),
    s.inputs = .hostWrite 0x00 .word v :: rest → s.status.busy = true →
    step s = .next { s with inputs := rest, status := { s.status with ovr := true } }

/-- R116: an engine turn while idle changes nothing. That a step with no input left leaves an idle engine as it is is the
model's choice (notes/assumptions/2.md). -/
def Obligations.IdleEngineDoesNothing : Prop :=
  ∀ s : State, s.status.busy = false →
    (s.inputs = [] → step s = .next s) ∧
    (∀ rest, s.inputs = .engineTurn :: rest → step s = .next { s with inputs := rest })

/-- R22 to R41, R61, R63, R68: a defined read returns what the register map of `windowNumber` gives offset by offset, and
changes no register. The value returned is kept in the model's own list `readLog` (notes/assumptions/4.md). -/
def Obligations.HostReadReturnsRegister : Prop :=
  ∀ (s : State) (off : BitVec 7) (rest : List Input), s.inputs = .hostRead off .word :: rest → off.toNat % 4 = 0 →
    step s = .next
      { s with
        inputs := rest
        readLog := s.readLog ++ [{ off := off, value := BitVec.ofNat 32 (windowNumber off.toNat s) }] }

/-- R96; the interleaving is the model's choice (notes/assumptions/3.md): one round of POLL reads STATUS, and while BUSY = 1
the engine moves before the next round. -/
def Obligations.PollReadsStatusUntilIdle : Prop :=
  ∀ (s : State) (rest : List Input), s.inputs = .poll :: rest →
    (s.status.busy = false → step s = .next
      { s with inputs := rest, readLog := s.readLog ++ [{ off := 0x04, value := s.status.toWord }] }) ∧
    (s.status.busy = true → step s = .next
      { s with
        inputs := .engineTurn :: .poll :: rest
        readLog := s.readLog ++ [{ off := 0x04, value := s.status.toWord }] })

/-- R62, R257. -/
def Obligations.UndefinedAccessFaults : Prop :=
  ∀ (s : State) (off : BitVec 7) (width : Width) (v : Word) (rest : List Input),
    (width ≠ .word ∨ off.toNat % 4 ≠ 0) →
    (s.inputs = .hostRead off width :: rest ∨ s.inputs = .hostWrite off width v :: rest) →
    step s = .fault (.badAccess (Config.base + off.toNat) width.bytes)

/-- R33, R37, R38, R41: the writable registers store their implemented bits. -/
def Obligations.WritableRegistersStore : Prop :=
  ∀ (s : State) (v : Word) (rest : List Input),
    (s.inputs = .hostWrite 0x08 .word v :: rest →
      step s = .next { s with inputs := rest, txdata := BitVec.ofNat 8 v.toNat }) ∧
    (s.inputs = .hostWrite 0x18 .word v :: rest → step s = .next { s with inputs := rest, praw := v }) ∧
    (s.inputs = .hostWrite 0x1C .word v :: rest → step s = .next { s with inputs := rest, tfine := v }) ∧
    (s.inputs = .hostWrite 0x40 .word v :: rest →
      step s = .next { s with inputs := rest, cal := { s.cal with cal0 := v } }) ∧
    (s.inputs = .hostWrite 0x44 .word v :: rest →
      step s = .next { s with inputs := rest, cal := { s.cal with cal1 := v } }) ∧
    (s.inputs = .hostWrite 0x48 .word v :: rest →
      step s = .next { s with inputs := rest, cal := { s.cal with cal2 := v } }) ∧
    (s.inputs = .hostWrite 0x4C .word v :: rest →
      step s = .next { s with inputs := rest, cal := { s.cal with cal3 := v } }) ∧
    (s.inputs = .hostWrite 0x50 .word v :: rest →
      step s = .next { s with inputs := rest, cal := { s.cal with cal4 := BitVec.ofNat 16 v.toNat } })

/-- R63, R64: writes to read-only registers and to reserved offsets change no state. -/
def Obligations.ReadOnlyWritesAreIgnored : Prop :=
  ∀ (s : State) (off : BitVec 7) (v : Word) (rest : List Input),
    s.inputs = .hostWrite off .word v :: rest → off.toNat % 4 = 0 →
    (off.toNat ∈ [0x04, 0x0C, 0x10, 0x14, 0x20, 0x24] ∨ (0x28 ≤ off.toNat ∧ off.toNat ≤ 0x3C) ∨ 0x54 ≤ off.toNat) →
    step s = .next { s with inputs := rest }

/-- R23, R32. -/
def Obligations.StatusWordLayout : Prop :=
  ∀ f : Status,
    f.toWord[0] = f.busy ∧ f.toWord[1] = f.present ∧ f.toWord[2] = f.presA ∧ f.toWord[3] = f.presB ∧
    f.toWord[4] = f.divz ∧ f.toWord[5] = f.altr ∧ f.toWord[6] = f.illegal ∧ f.toWord[7] = f.ovr ∧
    ∀ k, 8 ≤ k → f.toWord.getLsbD k = false

/-- R280, R281: the reset input, idle and during a command. -/
def Obligations.ResetInputClearsEngine : Prop :=
  ∀ (s : State) (rest : List Input), s.inputs = .reset :: rest →
    (s.status.busy = false → step s = .next
      { State.reset with inputs := rest, trace := s.trace, device := s.device, readLog := s.readLog }) ∧
    (s.status.busy = true → s.drive = false → step s = .next
      { State.reset with
        inputs := rest, trace := s.trace ++ [.abort, .drive true], device := s.device, readLog := s.readLog }) ∧
    (s.status.busy = true → s.drive = true → step s = .next
      { State.reset with inputs := rest, trace := s.trace ++ [.abort], device := s.device, readLog := s.readLog })

/-- R280: every register of the window reads 0 after reset, DRIVE is released, latches and sequencer are clear, the
trace is empty. -/
def Obligations.ResetStateReadsZero : Prop :=
  (∀ r, readReg r State.reset = 0) ∧ State.reset.drive = true ∧ State.reset.latch.op = 0 ∧
    State.reset.latch.txd = 0 ∧ State.reset.latch.praw = 0 ∧ State.reset.latch.tfine = 0 ∧
    (∀ k : Fin 18, State.reset.latch.cal[k.val] = 0) ∧ State.reset.events = [] ∧ State.reset.ev = 0 ∧
    State.reset.samples = [] ∧ State.reset.trace = []

/-- R133, R61: the constraints of the configuration, line by line, and the window's alignment. That the machine is built on
an admitted configuration is the model's form of R8 (notes/assumptions/7.md). -/
def Obligations.ConfigurationIsAdmitted : Prop :=
  par.tRstl < par.tRst ∧ par.tRstl + par.tRstw + par.tPds < par.tRst ∧ par.tW0l < 60 ∧ par.tW1l < 60 ∧
    par.tRl < par.tRslot ∧ par.tRl + par.tRs < par.tRslot ∧ (∀ d ∈ par.phases, par.tOvh + 8 ≤ d) ∧
    Config.base % 128 = 0

/-- R61: a host address inside the window names its offset, an address outside names none. -/
def Obligations.WindowAddressDecodes : Prop :=
  (∀ off : BitVec 7, windowOffset (hostAddress off) = some off) ∧
    ∀ addr : Nat, (addr < Config.base ∨ Config.base + 0x80 ≤ addr) → windowOffset addr = none

/-! ### Encoding -/

/-- Decoding the encoding of a command gives the command back, from the word and from its bytes; and a word decodes to a
command exactly when it equals the command's encoding but for the ignored bits [31:4] (R90). -/
def Obligations.DecodeEncodeAgree : Prop :=
  ∀ i : Instr, decode (encode i) = .ok i ∧ decodeBytes (encodeBytes i) = .ok i ∧
    commandWordWellFormed (encode i) = true ∧ ∀ v : Word, decode v = .ok i ↔ v &&& 0x0000000F#32 = encode i

/-- R90 to R92: OP alone decides; opcodes 9 to 15 are rejected by name; each of the others is exactly one command. -/
def Obligations.DecodeReadsOpcodeField : Prop :=
  ∀ v : Word,
    (∀ i, decode v = .ok i ↔ v.toNat % 16 = i.opcode.toNat) ∧
    (9 ≤ v.toNat % 16 ↔ decode v = .error (.reservedOpcode (BitVec.ofNat 4 (v.toNat % 16))))

/-- The words of a few commands, written out from the table. -/
def Obligations.WrittenOutWordsDecode : Prop :=
  decode 0x00000000#32 = .ok .nop ∧ decode 0x00000001#32 = .ok .reset ∧ decode 0xFFFFFFF3#32 = .ok .readBit ∧
    decode 0x00000005#32 = .ok .readByte ∧ decode 0xA5A50006#32 = .ok .readTemp ∧
    decode 0x00000007#32 = .ok .compensate ∧ decode 0x80000008#32 = .ok .altitude ∧
    decode 0x00000009#32 = .error (.reservedOpcode 9)

/-! ### Operands and arithmetic -/

/-- R41, R65, R66: the calibration bytes of the window in their byte order. -/
def Obligations.CalibrationBytesLittleEndian : Prop :=
  ∀ s : State,
    (∀ k : Fin 18, s.cal.bytes[k.val] = windowByte (BitVec.ofNat 7 (0x40 + k.val)) s ∧
      s.cal.bytes[k.val].toNat = (s.cal.word (k.val / 4)).toNat / 2 ^ (8 * (k.val % 4)) % 256) ∧
    (∀ m : Fin 5, field s.cal.bytes ⟨2 * m.val, by omega⟩ = (s.cal.word m.val).toNat % 65536) ∧
    (∀ m : Fin 4, field s.cal.bytes ⟨2 * m.val + 1, by omega⟩ = (s.cal.word m.val).toNat / 65536)

/-- R191, R192: digP1 zero-extended, digP2..digP9 sign-extended. -/
def Obligations.CoefficientsUnpack : Prop :=
  ∀ cal : Vector Byte 18,
    (unpack cal).p1.toInt = field cal 0 ∧ (unpack cal).p2.toInt = sext16 (field cal 1) ∧
    (unpack cal).p3.toInt = sext16 (field cal 2) ∧ (unpack cal).p4.toInt = sext16 (field cal 3) ∧
    (unpack cal).p5.toInt = sext16 (field cal 4) ∧ (unpack cal).p6.toInt = sext16 (field cal 5) ∧
    (unpack cal).p7.toInt = sext16 (field cal 6) ∧ (unpack cal).p8.toInt = sext16 (field cal 7) ∧
    (unpack cal).p9.toInt = sext16 (field cal 8)

/-- R190, R195: each operation of the compensator is the exact result on whole numbers, wrapped to s64. -/
def Obligations.FixedPointOperationsWrap : Prop :=
  ∀ (a b : DWord) (k : Nat),
    (add64 a b).toInt = wrap64 (a.toInt + b.toInt) ∧ (sub64 a b).toInt = wrap64 (a.toInt - b.toInt) ∧
    (mul64 a b).toInt = wrap64 (a.toInt * b.toInt) ∧ (shl64 a k).toInt = wrap64 (a.toInt * 2 ^ k) ∧
    (sar64 a k).toInt = floorShift a.toInt k ∧ (b ≠ 0 → (tdiv64 a b).toInt = wrap64 (a.toInt.tdiv b.toInt))

/-- R193: the compensator is the spec's formula on whole numbers, operation by operation. -/
def Obligations.CompensatorIsTheFormula : Prop :=
  ∀ (praw tfine : Word) (cal : Vector Byte 18),
    (((comp praw tfine cal).1.toNat : Int), (comp praw tfine cal).2)
      = compInt praw.toInt tfine.toInt (field cal 0) (sext16 (field cal 1)) (sext16 (field cal 2))
          (sext16 (field cal 3)) (sext16 (field cal 4)) (sext16 (field cal 5)) (sext16 (field cal 6))
          (sext16 (field cal 7)) (sext16 (field cal 8))

/-- R194: when the guard fires, and what it returns. -/
def Obligations.GuardFiresExactly : Prop :=
  ∀ (praw tfine : Word) (cal : Vector Byte 18) (w product : DWord),
    w = add64
      (sar64 (mul64 (mul64 (fineOffset tfine) (fineOffset tfine)) (unpack cal).p3) 8)
      (shl64 (mul64 (fineOffset tfine) (unpack cal).p2) 12) →
    product = mul64 (add64 0x0000800000000000#64 w) (unpack cal).p1 →
    ((comp praw tfine cal).2 = true ↔ 0 ≤ product.toInt ∧ product.toInt < 2 ^ 33) ∧
    ((comp praw tfine cal).2 = true → (comp praw tfine cal).1 = 0) ∧
    (field cal 0 = 0 → (comp praw tfine cal).2 = true)

/-- R174: q is raw * 100 / 16 truncated toward zero, in its range, and TEMP holds it whole. -/
def Obligations.TemperatureScaleTruncates : Prop :=
  ∀ raw : BitVec 16,
    -3276800 ≤ raw.toInt * 100 ∧ raw.toInt * 100 ≤ 3276700 ∧
    -204800 ≤ scaledTemperature raw ∧ scaledTemperature raw ≤ 204793 ∧
    (0 ≤ raw.toInt → scaledTemperature raw * 16 ≤ raw.toInt * 100 ∧ raw.toInt * 100 < scaledTemperature raw * 16 + 16) ∧
    (raw.toInt < 0 → raw.toInt * 100 ≤ scaledTemperature raw * 16 ∧
      scaledTemperature raw * 16 < raw.toInt * 100 + 16) ∧
    (BitVec.ofInt 32 (scaledTemperature raw)).toInt = scaledTemperature raw

/-- R175: TEMP after a READ_TEMP, and its 16-bit view. -/
def Obligations.SixteenBitTemperatureView : Prop :=
  ∀ s : State, runs .readTemp s → atEnd s →
    ∃ t, exec .readTemp s = .next t ∧ t.temp = BitVec.ofInt 32 (scaledTemperature t.scratch) ∧
      temperature16 t = (scaledTemperature t.scratch).bmod (2 ^ 16) ∧
      (temperature16 t = scaledTemperature t.scratch ↔ -5243 ≤ t.scratch.toInt ∧ t.scratch.toInt ≤ 5242)

/-- R11: f64(n) is exact for every n below 2^53. -/
def Obligations.IntegersConvertExactly : Prop :=
  ∀ n : Nat, n < 2 ^ 53 → f64Units (f64OfNat n) = n * unitsPerOne ∧ finitePositive (f64OfNat n)

/-- R230: on finite operands, multiplication, division and subtraction answer the exact product, quotient or difference
rounded to nearest, ties to even, with its sign. The layout of the encoding and the sign of a zero result are those of the
IEEE 754 that R230 names (notes/assumptions/12.md). -/
def Obligations.RoundsToNearestEven : Prop :=
  (∀ n d : Nat, 0 < d → roundsTo n d (f64Pack false (roundUnits n d))) ∧
  ∀ x y : DWord, isFinite x → isFinite y →
    (roundsTo (magnitude x * magnitude y) (2 ^ 1074) (fmul x y) ∧
      (isNegative (fmul x y) ↔ ¬(isNegative x ↔ isNegative y))) ∧
    (magnitude y ≠ 0 →
      roundsTo (magnitude x * 2 ^ 1074) (magnitude y) (fdiv x y) ∧
      (isNegative (fdiv x y) ↔ ¬(isNegative x ↔ isNegative y))) ∧
    (valueOf x ≠ valueOf y →
      roundsTo (valueOf x - valueOf y).natAbs 1 (fsub x y) ∧ (isNegative (fsub x y) ↔ valueOf x < valueOf y)) ∧
    (valueOf x = valueOf y →
      magnitude (fsub x y) = 0 ∧ isFinite (fsub x y) ∧
      (isNegative (fsub x y) ↔ magnitude x = 0 ∧ isNegative x ∧ ¬isNegative y))

/-- R234: the conversion of the altitude, by its exact value in units of 2^-1074. -/
def Obligations.AltitudeConversionTruncates : Prop :=
  ∀ a : DWord,
    (f64IsNaN a = true → convertAltitude a = (Config.altOor a, true)) ∧
    (f64IsNaN a = false →
      (f64Value a ≤ -(unitsPerOne : Int) ∨ 2 ^ 32 * (unitsPerOne : Int) ≤ f64Value a →
        convertAltitude a = (Config.altOor a, true)) ∧
      (-(unitsPerOne : Int) < f64Value a → f64Value a < 2 ^ 32 * (unitsPerOne : Int) →
        (convertAltitude a).2 = false ∧
          ((convertAltitude a).1.toNat : Int) = (f64Value a).tdiv (unitsPerOne : Int)))

/-- R236: for every power function with POW_ZERO of R233, and every pressure below 25600: t1 = +0, t2 = +0, t3 = 1.0,
a = 44330.0, and ALT = 44330 with ALTR = 0. ALTITUDE writes these results (AltitudeWritesResults). -/
def Obligations.AltitudeOfSmallPressure : Prop :=
  ∀ (pow : DWord → DWord → DWord) (press : Word),
    pow 0x0000000000000000#64 0x3FC85BC01A36E2EB#64 = 0x0000000000000000#64 → press.toNat < 25600 →
    pressureRatio press = 0x0000000000000000#64 ∧
    pow (pressureRatio press) 0x3FC85BC01A36E2EB#64 = 0x0000000000000000#64 ∧
    fsub 0x3FF0000000000000#64 (pow (pressureRatio press) 0x3FC85BC01A36E2EB#64) = 0x3FF0000000000000#64 ∧
    altitudeValue pow press = 0x40E5A54000000000#64 ∧ convertAltitude (altitudeValue pow press) = (44330, false)

/-! ### The event lists -/

/-- R142: every command leaves the line released, and its first event, if it has one, pulls it low. -/
def Obligations.CommandsReleaseTheLine : Prop :=
  ∀ (i : Instr) (l : Latches),
    driveAfter (eventList i l) true = true ∧ (eventList i l = [] ∨ (eventList i l).head? = some (.drive false))

/-- R171, R176: READ_TEMP has 189 events and 18 samples, with the conversion wait at event 54. -/
def Obligations.TemperatureTransactionShape : Prop :=
  ∀ l : Latches,
    eventList .readTemp l = temperatureSequence ∧ (eventList .readTemp l).length = 189 ∧
    sampleCount (eventList .readTemp l) = 18 ∧ (eventList .readTemp l)[54]? = some (.waitMs 750) ∧
    ((eventList .readTemp l).take 6 = resetSequence) ∧ (((eventList .readTemp l).drop 55).take 6 = resetSequence)

/-- R133: every timed phase of every command leaves the delay primitive at least 8 µs. -/
def Obligations.TimedPhasesAreRealisable : Prop :=
  ∀ (i : Instr) (l : Latches) (d : Nat), .waitUs d ∈ eventList i l → par.tOvh + 8 ≤ d

/-- R291: the total nominal wait of each command. -/
def Obligations.NominalWaitTotals : Prop :=
  ∀ l : Latches,
    (∀ i, i ∈ [Instr.nop, .compensate, .altitude] → waitTotalUs (eventList i l) = 0) ∧
    waitTotalUs (eventList .reset l) = par.tRst ∧
    (l.txd[0] = true → waitTotalUs (eventList .writeBit l) = 60 - par.tW1l) ∧
    (l.txd[0] = false → waitTotalUs (eventList .writeBit l) = par.tW0l) ∧
    waitTotalUs (eventList .readBit l) = par.tRslot - par.tRl ∧
    waitTotalUs (eventList .writeByte l) = ones l.txd * (60 - par.tW1l) + (8 - ones l.txd) * par.tW0l ∧
    waitTotalUs (eventList .readByte l) = 8 * (par.tRslot - par.tRl) ∧
    waitTotalUs (eventList .readTemp l)
      = 2 * par.tRst + 16 * (60 - par.tW1l) + 16 * par.tW0l + 16 * (par.tRslot - par.tRl) ∧
    waitTotalMs (eventList .readTemp l) = 750 ∧ (∀ i, i ≠ .readTemp → waitTotalMs (eventList i l) = 0)

/-! ### Rules of the whole machine -/

/-- The invariant holds after reset. -/
def Obligations.ResetStateMeetsInv : Prop := State.Inv State.reset

/-- Every step keeps the invariant. -/
def Obligations.StepKeepsInv : Prop := ∀ s t : State, s.Inv → step s = .next t → t.Inv

/-- R250, R257: a good state with defined accesses to come always has a next state, and its accesses to come are defined
again. -/
def Obligations.DefinedAccessesNeverStop : Prop :=
  ∀ s : State, s.Inv → inputsDefined s → ∃ t, step s = .next t ∧ inputsDefined t

/-- R118: an accepted command is busy for exactly length(E) engine steps and idle after one more. With no input to come
every step is the engine's (notes/assumptions/2.md). -/
def Obligations.CommandCompletesOnTime : Prop :=
  ∀ (i : Instr) (s : State), s.status.busy = false → s.inputs = [] →
    ∃ t0, exec i s = .next t0 ∧ t0.events = eventList i t0.latch ∧
      (∀ k, k ≤ t0.events.length → ∃ t, stepMany k t0 = .next t ∧ t.status.busy = true ∧ t.ev = k) ∧
      ∃ t, stepMany (t0.events.length + 1) t0 = .next t ∧ t.status.busy = false ∧
        t.trace = s.trace ++ performed t0.events t.samples ∧ t.samples.length = sampleCount t0.events

/-- R165: a byte read under an oracle that answers with the bits of v, in order, is v. The oracle is the model's device
`script`, which gives one answer a sample (notes/assumptions/6.md), and with no input to come every step is the engine's
(notes/assumptions/2.md). -/
def Obligations.FramingLaw : Prop :=
  ∀ (v : Byte) (more : List Bit) (s : State), s.status.busy = false → s.inputs = [] →
    s.device = .script (bitsOf v ++ more) →
    ∃ t0 t, exec .readByte s = .next t0 ∧ stepMany 41 t0 = .next t ∧
      t.status.busy = false ∧ readReg .rxdata t = v.setWidth 32 ∧ t.device = .script more

/-- R96, R118: a `RUN` ends: the POLL loop stops, the engine is idle and CMD holds the command's opcode. That the engine
moves between two reads of the loop is the model's choice (notes/assumptions/3.md). -/
def Obligations.RunOfCommandEnds : Prop :=
  ∀ (i : Instr) (s : State), s.status.busy = false → s.inputs = hostRun i →
    ∃ k t, stepMany k s = .next t ∧ programEnded t ∧ t.cmd = i.opcode ∧
      t.status.illegal = false ∧ t.status.ovr = false

/-- R75, R76: the free oracle answers as a function of the trace; a wire returns DRIVE, which is 1 at every sample the
engine takes. -/
def Obligations.WireSamplesReadOne : Prop :=
  ∀ s : State, (s.device = .free → senseBit s = Config.oracle s.trace) ∧ (s.device = .wire → senseBit s = s.drive) ∧
    (s.Inv → s.status.busy = true → s.events[s.ev]? = some .sample → s.drive = true)

/-- R73: the trace only grows. -/
def Obligations.TraceOnlyGrows : Prop :=
  ∀ s t : State, step s = .next t → ∃ es, t.trace = s.trace ++ es ∧ es.length ≤ 2

/-- R43, R77: while a command runs, nothing changes its latches or its event list. -/
def Obligations.RunningCommandIsFixed : Prop :=
  ∀ s t : State, step s = .next t → s.status.busy = true → t.status.busy = true →
    t.latch = s.latch ∧ t.events = s.events ∧ t.cmd = s.cmd ∧ s.ev ≤ t.ev ∧ t.ev ≤ s.ev + 1 ∧
      ∃ new, t.samples = s.samples ++ new

/-- R24, R71: results and their flags change only at a completion step or a reset. -/
def Obligations.ResultsChangeAtCompletion : Prop :=
  ∀ s t : State, step s = .next t → (∀ rest, s.inputs ≠ .reset :: rest) →
    (s.status.busy = false ∨ t.status.busy = true) →
    t.rxdata = s.rxdata ∧ t.scratch = s.scratch ∧ t.temp = s.temp ∧ t.press = s.press ∧ t.alt = s.alt ∧
      t.status.present = s.status.present ∧ t.status.presA = s.status.presA ∧ t.status.presB = s.status.presB ∧
      t.status.divz = s.status.divz ∧ t.status.altr = s.status.altr

/-- R22, R33, R37, R38, R41: the engine's own turn never writes CMD, an operand register, ILLEGAL or OVR. -/
def Obligations.EngineNeverWritesOperands : Prop :=
  ∀ s t : State, (s.inputs = [] ∨ ∃ rest, s.inputs = .engineTurn :: rest) → step s = .next t →
    t.cmd = s.cmd ∧ t.txdata = s.txdata ∧ t.praw = s.praw ∧ t.tfine = s.tfine ∧ t.cal = s.cal ∧
      t.status.illegal = s.status.illegal ∧ t.status.ovr = s.status.ovr

/-- R115, R119: what the device answers never steers the sequence. A run with any host accesses, engine turns, polls and
resets to come (R70, R77), taken again with another device, goes as far, performs the same events and accepts the same
commands; only sampled bits and what is computed or read from them may differ. -/
def Obligations.SamplesNeverSteer : Prop :=
  ∀ (s t : State) (d : BusDevice) (k : Nat), stepMany k s = .next t →
    ∃ u, stepMany k { s with device := d } = .next u ∧
      t.trace.map shape = u.trace.map shape ∧ t.samples.length = u.samples.length ∧
      t.events = u.events ∧ t.ev = u.ev ∧ t.drive = u.drive ∧ t.latch = u.latch ∧ t.inputs = u.inputs ∧
      t.cmd = u.cmd ∧ t.txdata = u.txdata ∧ t.praw = u.praw ∧ t.tfine = u.tfine ∧ t.cal = u.cal ∧
      t.press = u.press ∧ t.alt = u.alt ∧ t.status.busy = u.status.busy ∧ t.status.divz = u.status.divz ∧
      t.status.altr = u.status.altr ∧ t.status.illegal = u.status.illegal ∧ t.status.ovr = u.status.ovr

/-- R200: COMPENSATE, accepted and completed, is a function of PRAW, TFINE and the calibration alone. -/
def Obligations.CompensateIsPure : Prop :=
  ∀ s t : State, s.status.busy = false → exec .compensate s = .next t →
    exec .compensate t = .next
      { t with
        press := (comp s.praw s.tfine s.cal.bytes).1
        status := { t.status with divz := (comp s.praw s.tfine s.cal.bytes).2, busy := false } }

/-- R96, R192: after SETP the calibration bytes are the low and high bytes of the nine patterns in order, the fields are
the patterns, and every other field of the state is as before, but for the inputs taken. -/
def Obligations.SetPStoresCoefficients : Prop :=
  ∀ (p : Vector (BitVec 16) 9) (s : State), s.inputs = hostSetP p →
    ∃ w : CalWindow, stepMany 5 s = .next { s with inputs := [], cal := w } ∧
      ∀ i : Fin 9, w.bytes[2 * i.val].toNat = p[i.val].toNat % 256 ∧
        w.bytes[2 * i.val + 1].toNat = p[i.val].toNat / 256 ∧ calField w.bytes i = p[i.val]
end

