-- ==== Sys2Proof/Laws/Binary64.lean ====
section
/-! SUPPORT. Binary64 encodings as numbers: what packing stores, and the units of a rounded magnitude. -/

namespace Sys2Proof.Machine

/-- One is some units. -/
theorem unitsPerOne_pos : 0 < unitsPerOne := by
  unfold unitsPerOne
  positivity

/-- Infinity's encoding leaves the sign bit free. -/
theorem infinityBits_lt : infinityBits < 2 ^ 63 := by decide

/-- A packed positive encoding as a number. -/
theorem f64Pack_toNat {m : Nat} (h : m < 2 ^ 63) : (f64Pack false m).toNat = m := by
  simp [f64Pack]
  omega

/-- Its sign-less encoding. -/
theorem f64Abs_pack {m : Nat} (h : m < 2 ^ 63) : f64Abs (f64Pack false m) = m := by
  rw [f64Abs, f64Pack_toNat h]
  omega

/-- Its sign. -/
theorem f64Sign_pack {m : Nat} (h : m < 2 ^ 63) : f64Sign (f64Pack false m) = false := by
  rw [f64Sign, BitVec.getLsbD, f64Pack_toNat h]
  exact Nat.testBit_lt_two_pow h

/-- The units of an encoding built from a binade k and a significand m. -/
theorem f64Units_pack {k m : Nat} (h : k * 2 ^ 52 + m < 2 ^ 63) (hm : m ≤ 2 ^ 53) (hk : k = 0 ∨ 2 ^ 52 ≤ m) :
    f64Units (f64Pack false (k * 2 ^ 52 + m)) = m * 2 ^ k := by
  have hf : f64Fraction (f64Pack false (k * 2 ^ 52 + m)) = (k * 2 ^ 52 + m) % 2 ^ 52 := by
    rw [f64Fraction, f64Pack_toNat h]
  rw [f64Units, f64Exponent, f64Abs_pack h, hf]
  rcases lt_or_eq_of_le hm with hlt | rfl
  · rcases lt_or_ge m (2 ^ 52) with h1 | h1
    · obtain rfl : k = 0 := by omega
      rw [Nat.zero_mul, Nat.zero_add, Nat.div_eq_of_lt h1, if_pos rfl, Nat.mod_eq_of_lt h1]
      simp
    · have e1 : (k * 2 ^ 52 + m) / 2 ^ 52 = k + 1 := by omega
      have e2 : (k * 2 ^ 52 + m) % 2 ^ 52 = m - 2 ^ 52 := by omega
      rw [e1, e2, if_neg (by omega), show k + 1 - 1 = k by omega, show 2 ^ 52 + (m - 2 ^ 52) = m by omega]
  · have e1 : (k * 2 ^ 52 + 2 ^ 53) / 2 ^ 52 = k + 2 := by omega
    have e2 : (k * 2 ^ 52 + 2 ^ 53) % 2 ^ 52 = 0 := by omega
    rw [e1, e2]
    simp [pow_succ]
    ring

/-- A packed encoding as a number, with either sign. -/
theorem f64Pack_signed_toNat (sign : Bit) {m : Nat} (h : m < 2 ^ 63) :
    (f64Pack sign m).toNat = (if sign then 2 ^ 63 else 0) + m := by
  cases sign <;> simp [f64Pack] <;> omega

/-- The encoding grows no further than infinity's. -/
theorem roundUnits_le (n d : Nat) : roundUnits n d ≤ infinityBits := min_le_right _ _

/-- Finite operands multiply by one rounding of the exact product (R230). -/
theorem fmul_finite {x y : DWord} (hx : f64Abs x < infinityBits) (hy : f64Abs y < infinityBits) :
    fmul x y = f64Pack (f64Sign x != f64Sign y) (roundUnits (f64Units x * f64Units y) unitsPerOne) := by
  simp [fmul, f64IsNaN, f64IsInf, hx.not_gt, hy.not_gt, hx.ne, hy.ne]

/-- Finite operands, the second no zero, divide by one rounding of the exact quotient (R230). -/
theorem fdiv_finite {x y : DWord} (hx : f64Abs x < infinityBits) (hy : f64Abs y < infinityBits) (h0 : f64Abs y ≠ 0) :
    fdiv x y = f64Pack (f64Sign x != f64Sign y) (roundUnits (f64Units x * unitsPerOne) (f64Units y)) := by
  simp [fdiv, f64IsNaN, f64IsInf, f64IsZero, hx.not_gt, hy.not_gt, hx.ne, hy.ne, h0]

/-- Finite operands of different value subtract by one rounding of the exact difference (R230). -/
theorem fsub_finite {x y : DWord} (hx : f64Abs x < infinityBits) (hy : f64Abs y < infinityBits)
    (h : f64Value x ≠ f64Value y) :
    fsub x y = f64Pack (decide (f64Value x < f64Value y)) (roundUnits (f64Value x - f64Value y).natAbs 1) := by
  simp [fsub, f64IsNaN, f64IsInf, hx.not_gt, hy.not_gt, hx.ne, hy.ne, sub_eq_zero, h]

/-- Finite operands of equal value subtract to a zero, negative only for (-0) - (+0). -/
theorem fsub_equal {x y : DWord} (hx : f64Abs x < infinityBits) (hy : f64Abs y < infinityBits)
    (h : f64Value x = f64Value y) : fsub x y = f64Pack (f64IsZero x && f64Sign x && !f64Sign y) 0 := by
  simp [fsub, f64IsNaN, f64IsInf, hx.not_gt, hy.not_gt, hx.ne, hy.ne, h]

/-- Rounding stays next to the truncated quotient. -/
theorem roundHalfEven_bounds {n d : Nat} : n / d ≤ roundHalfEven n d ∧ roundHalfEven n d ≤ n / d + 1 := by
  unfold roundHalfEven
  split <;> omega

/-- The binade of q: none below 53 bits, else the one that leaves 53 bits. -/
theorem binade_bounds (q : Nat) :
    (q < 2 ^ 53 ∧ binade q = 0) ∨ (2 ^ 53 ≤ q ∧ 2 ^ (52 + binade q) ≤ q ∧ q < 2 ^ (53 + binade q)) := by
  unfold binade
  rcases lt_or_ge q (2 ^ 53) with h | h
  · refine .inl ⟨h, ?_⟩
    rcases Nat.eq_zero_or_pos q with rfl | hp
    · rfl
    · have := (Nat.log2_lt (by omega)).2 h
      omega
  · have h0 : q ≠ 0 := by omega
    have h1 : 53 ≤ q.log2 := (Nat.le_log2 h0).2 h
    refine .inr ⟨h, ?_, ?_⟩
    · exact (Nat.le_log2 h0).1 (by omega)
    · exact (Nat.log2_lt h0).1 (by omega)

end Sys2Proof.Machine
end

