-- ==== Sys2Proof/Laws/State.lean ====
section
/-! SUPPORT. One lemma per field per update of the state: what each shared operation leaves in each field, so that no proof
unfolds a record update. -/

namespace Sys2Proof.Machine


/-! ### flagsAccepted -/

@[simp] theorem flagsAccepted_busy (f : Status) : (flagsAccepted f).busy = true := rfl
@[simp] theorem flagsAccepted_present (f : Status) : (flagsAccepted f).present = f.present := rfl
@[simp] theorem flagsAccepted_presA (f : Status) : (flagsAccepted f).presA = f.presA := rfl
@[simp] theorem flagsAccepted_presB (f : Status) : (flagsAccepted f).presB = f.presB := rfl
@[simp] theorem flagsAccepted_divz (f : Status) : (flagsAccepted f).divz = f.divz := rfl
@[simp] theorem flagsAccepted_altr (f : Status) : (flagsAccepted f).altr = f.altr := rfl
@[simp] theorem flagsAccepted_illegal (f : Status) : (flagsAccepted f).illegal = false := rfl
@[simp] theorem flagsAccepted_ovr (f : Status) : (flagsAccepted f).ovr = false := rfl

/-! ### flagsIllegal -/

@[simp] theorem flagsIllegal_busy (f : Status) : (flagsIllegal f).busy = f.busy := rfl
@[simp] theorem flagsIllegal_present (f : Status) : (flagsIllegal f).present = f.present := rfl
@[simp] theorem flagsIllegal_presA (f : Status) : (flagsIllegal f).presA = f.presA := rfl
@[simp] theorem flagsIllegal_presB (f : Status) : (flagsIllegal f).presB = f.presB := rfl
@[simp] theorem flagsIllegal_divz (f : Status) : (flagsIllegal f).divz = f.divz := rfl
@[simp] theorem flagsIllegal_altr (f : Status) : (flagsIllegal f).altr = f.altr := rfl
@[simp] theorem flagsIllegal_illegal (f : Status) : (flagsIllegal f).illegal = true := rfl
@[simp] theorem flagsIllegal_ovr (f : Status) : (flagsIllegal f).ovr = false := rfl

/-! ### flagsDropped -/

@[simp] theorem flagsDropped_busy (f : Status) : (flagsDropped f).busy = f.busy := rfl
@[simp] theorem flagsDropped_present (f : Status) : (flagsDropped f).present = f.present := rfl
@[simp] theorem flagsDropped_presA (f : Status) : (flagsDropped f).presA = f.presA := rfl
@[simp] theorem flagsDropped_presB (f : Status) : (flagsDropped f).presB = f.presB := rfl
@[simp] theorem flagsDropped_divz (f : Status) : (flagsDropped f).divz = f.divz := rfl
@[simp] theorem flagsDropped_altr (f : Status) : (flagsDropped f).altr = f.altr := rfl
@[simp] theorem flagsDropped_illegal (f : Status) : (flagsDropped f).illegal = f.illegal := rfl
@[simp] theorem flagsDropped_ovr (f : Status) : (flagsDropped f).ovr = true := rfl

/-! ### flagsCompleted -/

@[simp] theorem flagsCompleted_busy (f : Status) : (flagsCompleted f).busy = false := rfl
@[simp] theorem flagsCompleted_present (f : Status) : (flagsCompleted f).present = f.present := rfl
@[simp] theorem flagsCompleted_presA (f : Status) : (flagsCompleted f).presA = f.presA := rfl
@[simp] theorem flagsCompleted_presB (f : Status) : (flagsCompleted f).presB = f.presB := rfl
@[simp] theorem flagsCompleted_divz (f : Status) : (flagsCompleted f).divz = f.divz := rfl
@[simp] theorem flagsCompleted_altr (f : Status) : (flagsCompleted f).altr = f.altr := rfl
@[simp] theorem flagsCompleted_illegal (f : Status) : (flagsCompleted f).illegal = f.illegal := rfl
@[simp] theorem flagsCompleted_ovr (f : Status) : (flagsCompleted f).ovr = f.ovr := rfl

/-! ### accept -/

@[simp] theorem accept_cmd (op : BitVec 4) (es : Latches → List BusOp) (s : State) : (accept op es s).cmd = op := rfl
@[simp] theorem accept_status (op : BitVec 4) (es : Latches → List BusOp) (s : State) : (accept op es s).status = flagsAccepted s.status := rfl
@[simp] theorem accept_txdata (op : BitVec 4) (es : Latches → List BusOp) (s : State) : (accept op es s).txdata = s.txdata := rfl
@[simp] theorem accept_rxdata (op : BitVec 4) (es : Latches → List BusOp) (s : State) : (accept op es s).rxdata = s.rxdata := rfl
@[simp] theorem accept_scratch (op : BitVec 4) (es : Latches → List BusOp) (s : State) : (accept op es s).scratch = s.scratch := rfl
@[simp] theorem accept_temp (op : BitVec 4) (es : Latches → List BusOp) (s : State) : (accept op es s).temp = s.temp := rfl
@[simp] theorem accept_praw (op : BitVec 4) (es : Latches → List BusOp) (s : State) : (accept op es s).praw = s.praw := rfl
@[simp] theorem accept_tfine (op : BitVec 4) (es : Latches → List BusOp) (s : State) : (accept op es s).tfine = s.tfine := rfl
@[simp] theorem accept_press (op : BitVec 4) (es : Latches → List BusOp) (s : State) : (accept op es s).press = s.press := rfl
@[simp] theorem accept_alt (op : BitVec 4) (es : Latches → List BusOp) (s : State) : (accept op es s).alt = s.alt := rfl
@[simp] theorem accept_cal (op : BitVec 4) (es : Latches → List BusOp) (s : State) : (accept op es s).cal = s.cal := rfl
@[simp] theorem accept_latch (op : BitVec 4) (es : Latches → List BusOp) (s : State) : (accept op es s).latch = latchOperands op s := rfl
@[simp] theorem accept_events (op : BitVec 4) (es : Latches → List BusOp) (s : State) : (accept op es s).events = es (latchOperands op s) := rfl
@[simp] theorem accept_ev (op : BitVec 4) (es : Latches → List BusOp) (s : State) : (accept op es s).ev = 0 := rfl
@[simp] theorem accept_samples (op : BitVec 4) (es : Latches → List BusOp) (s : State) : (accept op es s).samples = [] := rfl
@[simp] theorem accept_drive (op : BitVec 4) (es : Latches → List BusOp) (s : State) : (accept op es s).drive = s.drive := rfl
@[simp] theorem accept_trace (op : BitVec 4) (es : Latches → List BusOp) (s : State) : (accept op es s).trace = s.trace := rfl
@[simp] theorem accept_inputs (op : BitVec 4) (es : Latches → List BusOp) (s : State) : (accept op es s).inputs = s.inputs := rfl
@[simp] theorem accept_device (op : BitVec 4) (es : Latches → List BusOp) (s : State) : (accept op es s).device = s.device := rfl
@[simp] theorem accept_readLog (op : BitVec 4) (es : Latches → List BusOp) (s : State) : (accept op es s).readLog = s.readLog := rfl

/-! ### illegalCommand -/

@[simp] theorem illegalCommand_cmd (v : Word) (s : State) : (illegalCommand v s).cmd = opField v := rfl
@[simp] theorem illegalCommand_status (v : Word) (s : State) : (illegalCommand v s).status = flagsIllegal s.status := rfl
@[simp] theorem illegalCommand_txdata (v : Word) (s : State) : (illegalCommand v s).txdata = s.txdata := rfl
@[simp] theorem illegalCommand_rxdata (v : Word) (s : State) : (illegalCommand v s).rxdata = s.rxdata := rfl
@[simp] theorem illegalCommand_scratch (v : Word) (s : State) : (illegalCommand v s).scratch = s.scratch := rfl
@[simp] theorem illegalCommand_temp (v : Word) (s : State) : (illegalCommand v s).temp = s.temp := rfl
@[simp] theorem illegalCommand_praw (v : Word) (s : State) : (illegalCommand v s).praw = s.praw := rfl
@[simp] theorem illegalCommand_tfine (v : Word) (s : State) : (illegalCommand v s).tfine = s.tfine := rfl
@[simp] theorem illegalCommand_press (v : Word) (s : State) : (illegalCommand v s).press = s.press := rfl
@[simp] theorem illegalCommand_alt (v : Word) (s : State) : (illegalCommand v s).alt = s.alt := rfl
@[simp] theorem illegalCommand_cal (v : Word) (s : State) : (illegalCommand v s).cal = s.cal := rfl
@[simp] theorem illegalCommand_latch (v : Word) (s : State) : (illegalCommand v s).latch = s.latch := rfl
@[simp] theorem illegalCommand_events (v : Word) (s : State) : (illegalCommand v s).events = s.events := rfl
@[simp] theorem illegalCommand_ev (v : Word) (s : State) : (illegalCommand v s).ev = s.ev := rfl
@[simp] theorem illegalCommand_samples (v : Word) (s : State) : (illegalCommand v s).samples = s.samples := rfl
@[simp] theorem illegalCommand_drive (v : Word) (s : State) : (illegalCommand v s).drive = s.drive := rfl
@[simp] theorem illegalCommand_trace (v : Word) (s : State) : (illegalCommand v s).trace = s.trace := rfl
@[simp] theorem illegalCommand_inputs (v : Word) (s : State) : (illegalCommand v s).inputs = s.inputs := rfl
@[simp] theorem illegalCommand_device (v : Word) (s : State) : (illegalCommand v s).device = s.device := rfl
@[simp] theorem illegalCommand_readLog (v : Word) (s : State) : (illegalCommand v s).readLog = s.readLog := rfl

/-! ### dropCommand -/

@[simp] theorem dropCommand_cmd (s : State) : (dropCommand s).cmd = s.cmd := rfl
@[simp] theorem dropCommand_status (s : State) : (dropCommand s).status = flagsDropped s.status := rfl
@[simp] theorem dropCommand_txdata (s : State) : (dropCommand s).txdata = s.txdata := rfl
@[simp] theorem dropCommand_rxdata (s : State) : (dropCommand s).rxdata = s.rxdata := rfl
@[simp] theorem dropCommand_scratch (s : State) : (dropCommand s).scratch = s.scratch := rfl
@[simp] theorem dropCommand_temp (s : State) : (dropCommand s).temp = s.temp := rfl
@[simp] theorem dropCommand_praw (s : State) : (dropCommand s).praw = s.praw := rfl
@[simp] theorem dropCommand_tfine (s : State) : (dropCommand s).tfine = s.tfine := rfl
@[simp] theorem dropCommand_press (s : State) : (dropCommand s).press = s.press := rfl
@[simp] theorem dropCommand_alt (s : State) : (dropCommand s).alt = s.alt := rfl
@[simp] theorem dropCommand_cal (s : State) : (dropCommand s).cal = s.cal := rfl
@[simp] theorem dropCommand_latch (s : State) : (dropCommand s).latch = s.latch := rfl
@[simp] theorem dropCommand_events (s : State) : (dropCommand s).events = s.events := rfl
@[simp] theorem dropCommand_ev (s : State) : (dropCommand s).ev = s.ev := rfl
@[simp] theorem dropCommand_samples (s : State) : (dropCommand s).samples = s.samples := rfl
@[simp] theorem dropCommand_drive (s : State) : (dropCommand s).drive = s.drive := rfl
@[simp] theorem dropCommand_trace (s : State) : (dropCommand s).trace = s.trace := rfl
@[simp] theorem dropCommand_inputs (s : State) : (dropCommand s).inputs = s.inputs := rfl
@[simp] theorem dropCommand_device (s : State) : (dropCommand s).device = s.device := rfl
@[simp] theorem dropCommand_readLog (s : State) : (dropCommand s).readLog = s.readLog := rfl

/-! ### logRead -/

@[simp] theorem logRead_cmd (off : BitVec 7) (s : State) : (logRead off s).cmd = s.cmd := rfl
@[simp] theorem logRead_status (off : BitVec 7) (s : State) : (logRead off s).status = s.status := rfl
@[simp] theorem logRead_txdata (off : BitVec 7) (s : State) : (logRead off s).txdata = s.txdata := rfl
@[simp] theorem logRead_rxdata (off : BitVec 7) (s : State) : (logRead off s).rxdata = s.rxdata := rfl
@[simp] theorem logRead_scratch (off : BitVec 7) (s : State) : (logRead off s).scratch = s.scratch := rfl
@[simp] theorem logRead_temp (off : BitVec 7) (s : State) : (logRead off s).temp = s.temp := rfl
@[simp] theorem logRead_praw (off : BitVec 7) (s : State) : (logRead off s).praw = s.praw := rfl
@[simp] theorem logRead_tfine (off : BitVec 7) (s : State) : (logRead off s).tfine = s.tfine := rfl
@[simp] theorem logRead_press (off : BitVec 7) (s : State) : (logRead off s).press = s.press := rfl
@[simp] theorem logRead_alt (off : BitVec 7) (s : State) : (logRead off s).alt = s.alt := rfl
@[simp] theorem logRead_cal (off : BitVec 7) (s : State) : (logRead off s).cal = s.cal := rfl
@[simp] theorem logRead_latch (off : BitVec 7) (s : State) : (logRead off s).latch = s.latch := rfl
@[simp] theorem logRead_events (off : BitVec 7) (s : State) : (logRead off s).events = s.events := rfl
@[simp] theorem logRead_ev (off : BitVec 7) (s : State) : (logRead off s).ev = s.ev := rfl
@[simp] theorem logRead_samples (off : BitVec 7) (s : State) : (logRead off s).samples = s.samples := rfl
@[simp] theorem logRead_drive (off : BitVec 7) (s : State) : (logRead off s).drive = s.drive := rfl
@[simp] theorem logRead_trace (off : BitVec 7) (s : State) : (logRead off s).trace = s.trace := rfl
@[simp] theorem logRead_inputs (off : BitVec 7) (s : State) : (logRead off s).inputs = s.inputs := rfl
@[simp] theorem logRead_device (off : BitVec 7) (s : State) : (logRead off s).device = s.device := rfl
@[simp] theorem logRead_readLog (off : BitVec 7) (s : State) : (logRead off s).readLog = s.readLog ++ [HostRead.mk off (readOffset off s)] := rfl

/-! ### takeReset -/

@[simp] theorem takeReset_cmd (s : State) : (takeReset s).cmd = State.reset.cmd := rfl
@[simp] theorem takeReset_status (s : State) : (takeReset s).status = State.reset.status := rfl
@[simp] theorem takeReset_txdata (s : State) : (takeReset s).txdata = State.reset.txdata := rfl
@[simp] theorem takeReset_rxdata (s : State) : (takeReset s).rxdata = State.reset.rxdata := rfl
@[simp] theorem takeReset_scratch (s : State) : (takeReset s).scratch = State.reset.scratch := rfl
@[simp] theorem takeReset_temp (s : State) : (takeReset s).temp = State.reset.temp := rfl
@[simp] theorem takeReset_praw (s : State) : (takeReset s).praw = State.reset.praw := rfl
@[simp] theorem takeReset_tfine (s : State) : (takeReset s).tfine = State.reset.tfine := rfl
@[simp] theorem takeReset_press (s : State) : (takeReset s).press = State.reset.press := rfl
@[simp] theorem takeReset_alt (s : State) : (takeReset s).alt = State.reset.alt := rfl
@[simp] theorem takeReset_cal (s : State) : (takeReset s).cal = State.reset.cal := rfl
@[simp] theorem takeReset_latch (s : State) : (takeReset s).latch = State.reset.latch := rfl
@[simp] theorem takeReset_events (s : State) : (takeReset s).events = State.reset.events := rfl
@[simp] theorem takeReset_ev (s : State) : (takeReset s).ev = State.reset.ev := rfl
@[simp] theorem takeReset_samples (s : State) : (takeReset s).samples = State.reset.samples := rfl
@[simp] theorem takeReset_drive (s : State) : (takeReset s).drive = State.reset.drive := rfl
@[simp] theorem takeReset_trace (s : State) : (takeReset s).trace = s.trace ++ resetEvents s := rfl
@[simp] theorem takeReset_inputs (s : State) : (takeReset s).inputs = s.inputs := rfl
@[simp] theorem takeReset_device (s : State) : (takeReset s).device = s.device := rfl
@[simp] theorem takeReset_readLog (s : State) : (takeReset s).readLog = s.readLog := rfl

/-! ### performEvent -/

@[simp] theorem performEvent_cmd (e : BusOp) (s : State) : (performEvent e s).cmd = s.cmd := by cases e <;> rfl
@[simp] theorem performEvent_status (e : BusOp) (s : State) : (performEvent e s).status = s.status := by cases e <;> rfl
@[simp] theorem performEvent_txdata (e : BusOp) (s : State) : (performEvent e s).txdata = s.txdata := by cases e <;> rfl
@[simp] theorem performEvent_rxdata (e : BusOp) (s : State) : (performEvent e s).rxdata = s.rxdata := by cases e <;> rfl
@[simp] theorem performEvent_scratch (e : BusOp) (s : State) : (performEvent e s).scratch = s.scratch := by cases e <;> rfl
@[simp] theorem performEvent_temp (e : BusOp) (s : State) : (performEvent e s).temp = s.temp := by cases e <;> rfl
@[simp] theorem performEvent_praw (e : BusOp) (s : State) : (performEvent e s).praw = s.praw := by cases e <;> rfl
@[simp] theorem performEvent_tfine (e : BusOp) (s : State) : (performEvent e s).tfine = s.tfine := by cases e <;> rfl
@[simp] theorem performEvent_press (e : BusOp) (s : State) : (performEvent e s).press = s.press := by cases e <;> rfl
@[simp] theorem performEvent_alt (e : BusOp) (s : State) : (performEvent e s).alt = s.alt := by cases e <;> rfl
@[simp] theorem performEvent_cal (e : BusOp) (s : State) : (performEvent e s).cal = s.cal := by cases e <;> rfl
@[simp] theorem performEvent_latch (e : BusOp) (s : State) : (performEvent e s).latch = s.latch := by cases e <;> rfl
@[simp] theorem performEvent_events (e : BusOp) (s : State) : (performEvent e s).events = s.events := by cases e <;> rfl
@[simp] theorem performEvent_ev (e : BusOp) (s : State) : (performEvent e s).ev = s.ev + 1 := by cases e <;> rfl
@[simp] theorem performEvent_inputs (e : BusOp) (s : State) : (performEvent e s).inputs = s.inputs := by cases e <;> rfl
@[simp] theorem performEvent_readLog (e : BusOp) (s : State) : (performEvent e s).readLog = s.readLog := by cases e <;> rfl

/-! ### complete -/

@[simp] theorem complete_cmd (done : Latches → List Bit → State → State) (s : State) : (complete done s).cmd = (done s.latch s.samples s).cmd := rfl
@[simp] theorem complete_status (done : Latches → List Bit → State → State) (s : State) : (complete done s).status = flagsCompleted (done s.latch s.samples s).status := rfl
@[simp] theorem complete_txdata (done : Latches → List Bit → State → State) (s : State) : (complete done s).txdata = (done s.latch s.samples s).txdata := rfl
@[simp] theorem complete_rxdata (done : Latches → List Bit → State → State) (s : State) : (complete done s).rxdata = (done s.latch s.samples s).rxdata := rfl
@[simp] theorem complete_scratch (done : Latches → List Bit → State → State) (s : State) : (complete done s).scratch = (done s.latch s.samples s).scratch := rfl
@[simp] theorem complete_temp (done : Latches → List Bit → State → State) (s : State) : (complete done s).temp = (done s.latch s.samples s).temp := rfl
@[simp] theorem complete_praw (done : Latches → List Bit → State → State) (s : State) : (complete done s).praw = (done s.latch s.samples s).praw := rfl
@[simp] theorem complete_tfine (done : Latches → List Bit → State → State) (s : State) : (complete done s).tfine = (done s.latch s.samples s).tfine := rfl
@[simp] theorem complete_press (done : Latches → List Bit → State → State) (s : State) : (complete done s).press = (done s.latch s.samples s).press := rfl
@[simp] theorem complete_alt (done : Latches → List Bit → State → State) (s : State) : (complete done s).alt = (done s.latch s.samples s).alt := rfl
@[simp] theorem complete_cal (done : Latches → List Bit → State → State) (s : State) : (complete done s).cal = (done s.latch s.samples s).cal := rfl
@[simp] theorem complete_latch (done : Latches → List Bit → State → State) (s : State) : (complete done s).latch = (done s.latch s.samples s).latch := rfl
@[simp] theorem complete_events (done : Latches → List Bit → State → State) (s : State) : (complete done s).events = (done s.latch s.samples s).events := rfl
@[simp] theorem complete_ev (done : Latches → List Bit → State → State) (s : State) : (complete done s).ev = (done s.latch s.samples s).ev := rfl
@[simp] theorem complete_samples (done : Latches → List Bit → State → State) (s : State) : (complete done s).samples = (done s.latch s.samples s).samples := rfl
@[simp] theorem complete_drive (done : Latches → List Bit → State → State) (s : State) : (complete done s).drive = (done s.latch s.samples s).drive := rfl
@[simp] theorem complete_trace (done : Latches → List Bit → State → State) (s : State) : (complete done s).trace = (done s.latch s.samples s).trace := rfl
@[simp] theorem complete_inputs (done : Latches → List Bit → State → State) (s : State) : (complete done s).inputs = (done s.latch s.samples s).inputs := rfl
@[simp] theorem complete_device (done : Latches → List Bit → State → State) (s : State) : (complete done s).device = (done s.latch s.samples s).device := rfl
@[simp] theorem complete_readLog (done : Latches → List Bit → State → State) (s : State) : (complete done s).readLog = (done s.latch s.samples s).readLog := rfl

/-! ### writeReg: a host write to a register changes TXDATA, PRAW, TFINE and the calibration window at most -/

@[simp] theorem writeReg_cmd (r : Reg) (v : Word) (s : State) : (writeReg r v s).cmd = s.cmd := by cases r <;> rfl
@[simp] theorem writeReg_status (r : Reg) (v : Word) (s : State) : (writeReg r v s).status = s.status := by cases r <;> rfl
@[simp] theorem writeReg_rxdata (r : Reg) (v : Word) (s : State) : (writeReg r v s).rxdata = s.rxdata := by cases r <;> rfl
@[simp] theorem writeReg_scratch (r : Reg) (v : Word) (s : State) : (writeReg r v s).scratch = s.scratch := by cases r <;> rfl
@[simp] theorem writeReg_temp (r : Reg) (v : Word) (s : State) : (writeReg r v s).temp = s.temp := by cases r <;> rfl
@[simp] theorem writeReg_press (r : Reg) (v : Word) (s : State) : (writeReg r v s).press = s.press := by cases r <;> rfl
@[simp] theorem writeReg_alt (r : Reg) (v : Word) (s : State) : (writeReg r v s).alt = s.alt := by cases r <;> rfl
@[simp] theorem writeReg_latch (r : Reg) (v : Word) (s : State) : (writeReg r v s).latch = s.latch := by cases r <;> rfl
@[simp] theorem writeReg_events (r : Reg) (v : Word) (s : State) : (writeReg r v s).events = s.events := by cases r <;> rfl
@[simp] theorem writeReg_ev (r : Reg) (v : Word) (s : State) : (writeReg r v s).ev = s.ev := by cases r <;> rfl
@[simp] theorem writeReg_samples (r : Reg) (v : Word) (s : State) : (writeReg r v s).samples = s.samples := by cases r <;> rfl
@[simp] theorem writeReg_drive (r : Reg) (v : Word) (s : State) : (writeReg r v s).drive = s.drive := by cases r <;> rfl
@[simp] theorem writeReg_trace (r : Reg) (v : Word) (s : State) : (writeReg r v s).trace = s.trace := by cases r <;> rfl
@[simp] theorem writeReg_inputs (r : Reg) (v : Word) (s : State) : (writeReg r v s).inputs = s.inputs := by cases r <;> rfl
@[simp] theorem writeReg_device (r : Reg) (v : Word) (s : State) : (writeReg r v s).device = s.device := by cases r <;> rfl
@[simp] theorem writeReg_readLog (r : Reg) (v : Word) (s : State) : (writeReg r v s).readLog = s.readLog := by cases r <;> rfl

/-! ### hostPoll -/

@[simp] theorem hostPoll_cmd (s : State) : (hostPoll s).cmd = s.cmd := by unfold hostPoll; cases s.status.busy <;> rfl
@[simp] theorem hostPoll_status (s : State) : (hostPoll s).status = s.status := by unfold hostPoll; cases s.status.busy <;> rfl
@[simp] theorem hostPoll_txdata (s : State) : (hostPoll s).txdata = s.txdata := by unfold hostPoll; cases s.status.busy <;> rfl
@[simp] theorem hostPoll_rxdata (s : State) : (hostPoll s).rxdata = s.rxdata := by unfold hostPoll; cases s.status.busy <;> rfl
@[simp] theorem hostPoll_scratch (s : State) : (hostPoll s).scratch = s.scratch := by unfold hostPoll; cases s.status.busy <;> rfl
@[simp] theorem hostPoll_temp (s : State) : (hostPoll s).temp = s.temp := by unfold hostPoll; cases s.status.busy <;> rfl
@[simp] theorem hostPoll_praw (s : State) : (hostPoll s).praw = s.praw := by unfold hostPoll; cases s.status.busy <;> rfl
@[simp] theorem hostPoll_tfine (s : State) : (hostPoll s).tfine = s.tfine := by unfold hostPoll; cases s.status.busy <;> rfl
@[simp] theorem hostPoll_press (s : State) : (hostPoll s).press = s.press := by unfold hostPoll; cases s.status.busy <;> rfl
@[simp] theorem hostPoll_alt (s : State) : (hostPoll s).alt = s.alt := by unfold hostPoll; cases s.status.busy <;> rfl
@[simp] theorem hostPoll_cal (s : State) : (hostPoll s).cal = s.cal := by unfold hostPoll; cases s.status.busy <;> rfl
@[simp] theorem hostPoll_latch (s : State) : (hostPoll s).latch = s.latch := by unfold hostPoll; cases s.status.busy <;> rfl
@[simp] theorem hostPoll_events (s : State) : (hostPoll s).events = s.events := by unfold hostPoll; cases s.status.busy <;> rfl
@[simp] theorem hostPoll_ev (s : State) : (hostPoll s).ev = s.ev := by unfold hostPoll; cases s.status.busy <;> rfl
@[simp] theorem hostPoll_samples (s : State) : (hostPoll s).samples = s.samples := by unfold hostPoll; cases s.status.busy <;> rfl
@[simp] theorem hostPoll_drive (s : State) : (hostPoll s).drive = s.drive := by unfold hostPoll; cases s.status.busy <;> rfl
@[simp] theorem hostPoll_trace (s : State) : (hostPoll s).trace = s.trace := by unfold hostPoll; cases s.status.busy <;> rfl
@[simp] theorem hostPoll_device (s : State) : (hostPoll s).device = s.device := by unfold hostPoll; cases s.status.busy <;> rfl

end Sys2Proof.Machine
end

