-- ==== Sys2Proof/Laws/Ops.lean ====
section
/-! SUPPORT. For each shared operation one lemma that says everything it can do; proofs cite these in place of unfolding. -/

namespace Sys2Proof.Machine

/-- Everything the lifecycle can do: accept, turn away, perform an event, complete (R110 to R114). -/
theorem runCommand_cases {op : BitVec 4} {es : Latches → List BusOp} {done : Latches → List Bit → State → State}
    {s t : State} (h : runCommand op es done s = .next t) :
    (s.status.busy = false ∧ t = accept op es s) ∨
    (s.status.busy = true ∧ s.latch.op ≠ op ∧ t = dropCommand s) ∨
    (s.status.busy = true ∧ s.latch.op = op ∧ ∃ e, s.events[s.ev]? = some e ∧ t = performEvent e s) ∨
    (s.status.busy = true ∧ s.latch.op = op ∧ s.events[s.ev]? = none ∧ t = complete done s) := by
  unfold runCommand at h
  cases hb : s.status.busy with
  | false =>
    simp only [hb, Bool.false_eq_true, if_false, Host.Outcome.next.injEq] at h
    exact .inl ⟨rfl, h.symm⟩
  | true =>
    by_cases ho : s.latch.op = op
    · simp only [hb, if_true, ho] at h
      cases he : s.events[s.ev]? with
      | none =>
        simp only [he, Host.Outcome.next.injEq] at h
        exact .inr (.inr (.inr ⟨rfl, ho, rfl, h.symm⟩))
      | some e =>
        simp only [he, Host.Outcome.next.injEq] at h
        exact .inr (.inr (.inl ⟨rfl, ho, e, rfl, h.symm⟩))
    · simp only [hb, if_true, ho, if_false, Host.Outcome.next.injEq] at h
      exact .inr (.inl ⟨rfl, ho, h.symm⟩)

/-- Idle, the lifecycle accepts. -/
theorem runCommand_idle {s : State} (op : BitVec 4) (es : Latches → List BusOp)
    (done : Latches → List Bit → State → State) (h : s.status.busy = false) :
    runCommand op es done s = .next (accept op es s) := by
  simp [runCommand, h]

/-- Running, with an event left, the lifecycle performs it. -/
theorem runCommand_event {s : State} {op : BitVec 4} {e : BusOp} (es : Latches → List BusOp)
    (done : Latches → List Bit → State → State) (hb : s.status.busy = true) (ho : s.latch.op = op)
    (he : s.events[s.ev]? = some e) : runCommand op es done s = .next (performEvent e s) := by
  simp [runCommand, hb, ho, he]

/-- Running, with no event left, the lifecycle completes. -/
theorem runCommand_complete {s : State} {op : BitVec 4} (es : Latches → List BusOp)
    (done : Latches → List Bit → State → State) (hb : s.status.busy = true) (ho : s.latch.op = op)
    (he : s.events[s.ev]? = none) : runCommand op es done s = .next (complete done s) := by
  simp [runCommand, hb, ho, he]

/-- Every meaning is the lifecycle of its command. -/
theorem exec_eq_runCommand (i : Instr) (s : State) :
    exec i s = runCommand i.opcode (eventList i) (doneOf i) s := by
  cases i <;> rfl

/-- The decoder inverts the opcode map, and nothing else decodes to a command. -/
theorem decodeOp_ok_iff (op : BitVec 4) (i : Instr) : decodeOp op = .ok i ↔ i.opcode = op := by
  revert op
  cases i <;> decide

/-- A command write: dropped, given to the engine, or recorded as illegal (R110 to R112). -/
theorem commandWrite_cases {v : Word} {s t : State} (h : commandWrite v s = .next t) :
    (s.status.busy = true ∧ t = dropCommand s) ∨
    (s.status.busy = false ∧ ∃ i, decode v = .ok i ∧ t = accept i.opcode (eventList i) s) ∨
    (s.status.busy = false ∧ (∃ r, decode v = .error r) ∧ t = illegalCommand v s) := by
  unfold commandWrite at h
  cases hb : s.status.busy with
  | true =>
    simp only [hb, if_true, Host.Outcome.next.injEq] at h
    exact .inl ⟨rfl, h.symm⟩
  | false =>
    simp only [hb, Bool.false_eq_true, if_false] at h
    cases hd : decode v with
    | ok i =>
      simp only [hd, exec_eq_runCommand, runCommand_idle _ _ _ hb, Host.Outcome.next.injEq] at h
      exact .inr (.inl ⟨rfl, i, rfl, h.symm⟩)
    | error r =>
      simp only [hd, Host.Outcome.next.injEq] at h
      exact .inr (.inr ⟨rfl, ⟨r, rfl⟩, h.symm⟩)

/-- A host read that answers is defined and only logs (R62, R68). -/
theorem hostRead_cases {off : BitVec 7} {width : Width} {s t : State} (h : hostRead off width s = .next t) :
    accessDefined off width = true ∧ t = logRead off s := by
  unfold hostRead at h
  split at h
  · next hd => exact ⟨hd, (Host.Outcome.next.inj h).symm⟩
  · cases h

/-- A host write that answers is defined, and is a command write, a register write, or ignored (R62 to R64). -/
theorem hostWrite_cases {off : BitVec 7} {width : Width} {v : Word} {s t : State}
    (h : hostWrite off width v s = .next t) :
    accessDefined off width = true ∧
      ((regAt off = some .cmd ∧ commandWrite v s = .next t) ∨
       (∃ r, regAt off = some r ∧ r ≠ .cmd ∧ t = writeReg r v s) ∨ (regAt off = none ∧ t = s)) := by
  unfold hostWrite at h
  split at h
  · next hd =>
    refine ⟨hd, ?_⟩
    split at h
    · next hr => exact .inl ⟨hr, h⟩
    · next r hn hr => exact .inr (.inl ⟨r, hr, fun e => hn e, (Host.Outcome.next.inj h).symm⟩)
    · next hr => exact .inr (.inr ⟨hr, (Host.Outcome.next.inj h).symm⟩)
  · cases h

/-- The engine's turn: nothing while idle, else an event or the completion of the latched command (R113, R114, R116). -/
theorem engineTurn_cases {s t : State} (h : engineTurn s = .next t) :
    (s.status.busy = false ∧ t = s) ∨
    (s.status.busy = true ∧ ∃ i, s.latch.op = i.opcode ∧
      ((∃ e, s.events[s.ev]? = some e ∧ t = performEvent e s) ∨
       (s.events[s.ev]? = none ∧ t = complete (doneOf i) s))) := by
  unfold engineTurn at h
  cases hb : s.status.busy with
  | false =>
    simp only [hb, Bool.false_eq_true, if_false, Host.Outcome.next.injEq] at h
    exact .inl ⟨rfl, h.symm⟩
  | true =>
    simp only [hb, if_true] at h
    cases hd : decodeOp s.latch.op with
    | error r => simp only [hd] at h; cases h
    | ok i =>
      simp only [hd, exec_eq_runCommand] at h
      have ho : s.latch.op = i.opcode := ((decodeOp_ok_iff _ _).1 hd).symm
      refine .inr ⟨rfl, i, ho, ?_⟩
      rcases runCommand_cases h with ⟨hf, -⟩ | ⟨-, hn, -⟩ | ⟨-, -, e, he, ht⟩ | ⟨-, -, he, ht⟩
      · simp [hb] at hf
      · exact absurd ho hn
      · exact .inl ⟨e, he, ht⟩
      · exact .inr ⟨he, ht⟩

/-- A step with no input left is the engine's turn. -/
theorem step_nil {s : State} (h : s.inputs = []) : step s = engineTurn s := by simp [step, h]

/-- A step with an input takes it. -/
theorem step_cons {s : State} {i : Input} {rest : List Input} (h : s.inputs = i :: rest) :
    step s = takeInput i { s with inputs := rest } := by simp [step, h]

/-- Everything a step can do, in the state `u` after the input has left the list. -/
theorem step_cases {s t : State} (h : step s = .next t) :
    (s.inputs = [] ∧ engineTurn s = .next t) ∨
    ∃ rest u, u = { s with inputs := rest } ∧
      ((s.inputs = .engineTurn :: rest ∧ engineTurn u = .next t) ∨
       (∃ off width, s.inputs = .hostRead off width :: rest ∧ hostRead off width u = .next t) ∨
       (∃ off width v, s.inputs = .hostWrite off width v :: rest ∧ hostWrite off width v u = .next t) ∨
       (s.inputs = .poll :: rest ∧ t = hostPoll u) ∨ (s.inputs = .reset :: rest ∧ t = takeReset u)) := by
  cases hi : s.inputs with
  | nil => exact .inl ⟨rfl, by rwa [step_nil hi] at h⟩
  | cons i rest =>
    rw [step_cons hi] at h
    refine .inr ⟨rest, _, rfl, ?_⟩
    cases i with
    | engineTurn => exact .inl ⟨rfl, h⟩
    | hostRead off width => exact .inr (.inl ⟨off, width, rfl, h⟩)
    | hostWrite off width v => exact .inr (.inr (.inl ⟨off, width, v, rfl, h⟩))
    | poll => exact .inr (.inr (.inr (.inl ⟨rfl, (Host.Outcome.next.inj h).symm⟩)))
    | reset => exact .inr (.inr (.inr (.inr ⟨rfl, (Host.Outcome.next.inj h).symm⟩)))

end Sys2Proof.Machine
end

