-- ==== Sys2Proof/Laws/Events.lean ====
section
/-! SUPPORT. Event lists: bytes unrolled into their eight slots, and how the drive level, the sample count and the performed trace
grow with a list. -/

namespace Sys2Proof.Machine

/-- Eight repetitions, written out. -/
theorem flatMap_range_eight {α : Type} (f : Nat → List α) :
    (List.range 8).flatMap f = f 0 ++ f 1 ++ f 2 ++ f 3 ++ f 4 ++ f 5 ++ f 6 ++ f 7 := by
  simp [List.range, List.range.loop]

/-- A byte's framing, slot by slot, bit 0 first (R160). -/
theorem wbyte_slots (v : Byte) :
    wbyte v = wbit (v.getLsbD 0) ++ wbit (v.getLsbD 1) ++ wbit (v.getLsbD 2) ++ wbit (v.getLsbD 3)
      ++ wbit (v.getLsbD 4) ++ wbit (v.getLsbD 5) ++ wbit (v.getLsbD 6) ++ wbit (v.getLsbD 7) :=
  flatMap_range_eight _

/-- Eight read slots (R162). -/
theorem rbyte_slots : rbyte = rbit ++ rbit ++ rbit ++ rbit ++ rbit ++ rbit ++ rbit ++ rbit := flatMap_range_eight _

/-- The drive level after two lists. -/
theorem driveAfter_append (a b : List BusOp) (v : Bit) : driveAfter (a ++ b) v = driveAfter b (driveAfter a v) := by
  induction a generalizing v with
  | nil => rfl
  | cons e a ih => cases e <;> simp [driveAfter, ih]

/-- A write slot ends released. -/
@[simp] theorem driveAfter_wbit (b v : Bit) : driveAfter (wbit b) v = true := by cases b <;> rfl

/-- The samples of a list with one more event. -/
theorem sampleCount_concat (es : List BusOp) (e : BusOp) :
    sampleCount (es ++ [e]) = sampleCount es + if e = .sample then 1 else 0 := by
  simp [sampleCount, List.countP_append, List.countP_cons]

/-- The performed trace with one more event. -/
theorem performed_concat {es : List BusOp} {ss : List Bit} (e : BusOp) (b : Bit) (h : ss.length = sampleCount es) :
    performed (es ++ [e]) (if e = .sample then ss ++ [b] else ss) = performed es ss ++ performed [e] [b] := by
  induction es generalizing ss with
  | nil =>
    obtain rfl : ss = [] := List.length_eq_zero_iff.1 (by simpa [sampleCount] using h)
    cases e <;> simp [performed]
  | cons x es ih =>
    cases x with
    | sample =>
      cases ss with
      | nil => simp [sampleCount] at h
      | cons s ss =>
        have := ih (ss := ss) (by simpa [sampleCount] using h)
        by_cases he : e = .sample
        · subst he
          simpa [performed] using this
        · simpa [he, performed] using this
    | _ =>
      have := ih (ss := ss) (by simpa [sampleCount] using h)
      simp [performed, this]

/-- The events performed so far, after one more. -/
theorem take_succ_events {s : State} {e : BusOp} (h : s.events[s.ev]? = some e) :
    s.events.take (s.ev + 1) = s.events.take s.ev ++ [e] := by
  rw [List.take_add_one, h]
  rfl

/-- At the end of the list no event is left. -/
theorem atEnd_iff (s : State) : atEnd s ↔ s.events[s.ev]? = none := by simp [atEnd]

end Sys2Proof.Machine
end

