-- ==== Sys2Proof/Laws/Operands.lean ====
section
/-! SUPPORT. What the decoder, the register map and the operand assembly compute, as numbers: one lemma per operation. -/

namespace Sys2Proof

/-- Two bytes joined. -/
theorem bytes_append_toNat (hi lo : Byte) : BitVec.toNat (w := 16) (hi ++ lo) = 256 * hi.toNat + lo.toNat := by
  have hlo := lo.isLt
  refine (BitVec.toNat_append hi lo).trans ?_
  rw [Nat.shiftLeft_eq, Nat.mul_comm, ← Nat.two_pow_add_eq_or_of_lt hlo]

/-- Byte lane j as a number (R65). -/
theorem lane_toNat (v : Word) (j : Nat) : (lane v j).toNat = v.toNat / 2 ^ (8 * j) % 256 := by
  simp [lane, BitVec.extractLsb'_toNat, Nat.shiftRight_eq_div_pow]

/-- The word of four lanes as a number (R65). -/
theorem wordOfLanes_toNat (b0 b1 b2 b3 : Byte) :
    (wordOfLanes b0 b1 b2 b3).toNat = 2 ^ 24 * b3.toNat + 2 ^ 16 * b2.toNat + 256 * b1.toNat + b0.toNat := by
  have h0 := b0.isLt
  have h1 := b1.isLt
  have h2 := b2.isLt
  have e0 : (b3 ++ b2 ++ b1 ++ b0).toNat = (b3 ++ b2 ++ b1).toNat <<< 8 ||| b0.toNat := BitVec.toNat_append _ b0
  have e1 : (b3 ++ b2 ++ b1).toNat = (b3 ++ b2).toNat <<< 8 ||| b1.toNat := BitVec.toNat_append _ b1
  have e2 : (b3 ++ b2).toNat = b3.toNat <<< 8 ||| b2.toNat := BitVec.toNat_append _ b2
  rw [Nat.shiftLeft_eq, Nat.mul_comm, ← Nat.two_pow_add_eq_or_of_lt h0] at e0
  rw [Nat.shiftLeft_eq, Nat.mul_comm, ← Nat.two_pow_add_eq_or_of_lt h1] at e1
  rw [Nat.shiftLeft_eq, Nat.mul_comm, ← Nat.two_pow_add_eq_or_of_lt h2] at e2
  refine e0.trans ?_
  rw [e1, e2]
  ring

/-- A word is the word of its lanes. -/
@[simp] theorem wordOfLanes_lane (v : Word) : wordOfLanes (lane v 0) (lane v 1) (lane v 2) (lane v 3) = v := by
  apply BitVec.eq_of_toNat_eq
  have hv := v.isLt
  rw [wordOfLanes_toNat, lane_toNat, lane_toNat, lane_toNat, lane_toNat]
  omega

/-- The lanes of a word of four lanes are the four. -/
theorem lane_wordOfLanes (b0 b1 b2 b3 : Byte) :
    lane (wordOfLanes b0 b1 b2 b3) 0 = b0 ∧ lane (wordOfLanes b0 b1 b2 b3) 1 = b1 ∧
    lane (wordOfLanes b0 b1 b2 b3) 2 = b2 ∧ lane (wordOfLanes b0 b1 b2 b3) 3 = b3 := by
  have h0 := b0.isLt
  have h1 := b1.isLt
  have h2 := b2.isLt
  have h3 := b3.isLt
  refine ⟨?_, ?_, ?_, ?_⟩ <;> apply BitVec.eq_of_toNat_eq <;> rw [lane_toNat, wordOfLanes_toNat] <;> omega

/-- OP as a number (R90). -/
theorem opField_toNat (v : Word) : (opField v).toNat = v.toNat % 16 := by
  simp [opField, BitVec.extractLsb'_toNat]

/-- OP, written from the number. -/
theorem opField_eq_ofNat (v : Word) : opField v = BitVec.ofNat 4 (v.toNat % 16) := by
  apply BitVec.eq_of_toNat_eq
  simp [opField_toNat]

/-- The reserved opcodes are 9 to 15 (R92). -/
theorem decodeOp_error_iff (op : BitVec 4) : decodeOp op = .error (.reservedOpcode op) ↔ 9 ≤ op.toNat := by
  revert op
  decide

/-- Every opcode decodes or is rejected. -/
theorem decodeOp_cases (op : BitVec 4) :
    (∃ i : Instr, decodeOp op = .ok i ∧ op.toNat ≤ 8) ∨ (decodeOp op = .error (.reservedOpcode op) ∧ 9 ≤ op.toNat) := by
  rcases Nat.lt_or_ge op.toNat 9 with h | h
  · refine .inl ?_
    have key : ∀ op : BitVec 4, op.toNat < 9 → ∃ i ∈ [Instr.nop, .reset, .writeBit, .readBit, .writeByte, .readByte,
        .readTemp, .compensate, .altitude], decodeOp op = .ok i := by decide
    obtain ⟨i, -, hi⟩ := key op h
    exact ⟨i, hi, by omega⟩
  · exact .inr ⟨(decodeOp_error_iff op).2 h, h⟩

/-- The table's word reaches the decoder whole. -/
theorem decodeTableWord_some {nbits w : Nat} {i : Instr} (h : decodeTableWord nbits w = some i) :
    decode (tableWord nbits w) = .ok i := by
  simp only [decodeTableWord, decodeBytes, wordOfLanes_lane] at h
  split at h
  · next hd => rw [hd]; exact congrArg _ (Option.some.inj h)
  · cases h

end Sys2Proof

namespace Sys2Proof.Machine

/-- The register at an offset is the one with that offset (R61). -/
theorem regAt_eq_some_iff (off : BitVec 7) (r : Reg) : regAt off = some r ↔ regOffset r = off := by
  revert off
  cases r <;> decide

/-- Calibration byte k as a number (R41). -/
theorem calWindow_byte_toNat (w : CalWindow) (k : Nat) :
    (w.byte k).toNat = (w.word (k / 4)).toNat / 2 ^ (8 * (k % 4)) % 256 := by
  simp [CalWindow.byte, lane_toNat]

/-- A calibration field as a number (R66). -/
theorem calField_toNat (cal : Vector Byte 18) (i : Fin 9) :
    (calField cal i).toNat = 256 * cal[2 * i.val + 1].toNat + cal[2 * i.val].toNat := by
  rw [calField, bytes_append_toNat]

/-- A sign-extended field keeps its signed value (R191). -/
theorem signExtend_calField_toInt (cal : Vector Byte 18) (i : Fin 9) :
    ((calField cal i).signExtend 64).toInt = (calField cal i).toInt :=
  BitVec.toInt_signExtend_of_le (by omega)

/-- A sign-extended word keeps its signed value (R191). -/
theorem sext32_toInt (v : Word) : (sext32 v).toInt = v.toInt := BitVec.toInt_signExtend_of_le (by omega)

/-- A reset's trace events (R281): what a reset adds. -/
theorem resetEvents_cases (s : State) :
    (s.status.busy = false ∧ resetEvents s = []) ∨
    (s.status.busy = true ∧ s.drive = true ∧ resetEvents s = [.abort]) ∨
    (s.status.busy = true ∧ s.drive = false ∧ resetEvents s = [.abort, .drive true]) := by
  unfold resetEvents
  cases s.status.busy <;> cases s.drive <;> simp

/-- One round of a poll (R96): the read is logged, and while BUSY = 1 the engine's turn and the poll come next. -/
theorem hostPoll_cases (s : State) :
    (s.status.busy = false ∧ hostPoll s = logRead (regOffset .status) s) ∨
    (s.status.busy = true ∧
      hostPoll s = { logRead (regOffset .status) s with inputs := .engineTurn :: .poll :: s.inputs }) := by
  unfold hostPoll
  cases s.status.busy <;> simp

/-- The guard's result is the sentinel 0 (R194). -/
theorem comp_sentinel {praw tfine : Word} {cal : Vector Byte 18} (h : (comp praw tfine cal).2 = true) :
    (comp praw tfine cal).1 = 0 := by
  unfold comp at h ⊢
  dsimp only at h ⊢
  split <;> simp_all

/-- What no completion writes (R42): the host's registers, ILLEGAL and OVR, the latches, the sequencer, the bus. -/
theorem doneOf_frame (i : Instr) (l : Latches) (ss : List Bit) (s : State) :
    (doneOf i l ss s).cmd = s.cmd ∧ (doneOf i l ss s).txdata = s.txdata ∧ (doneOf i l ss s).praw = s.praw ∧
    (doneOf i l ss s).tfine = s.tfine ∧ (doneOf i l ss s).cal = s.cal ∧
    (doneOf i l ss s).status.illegal = s.status.illegal ∧ (doneOf i l ss s).status.ovr = s.status.ovr ∧
    (doneOf i l ss s).latch = s.latch ∧ (doneOf i l ss s).events = s.events ∧ (doneOf i l ss s).ev = s.ev ∧
    (doneOf i l ss s).samples = s.samples ∧ (doneOf i l ss s).drive = s.drive ∧
    (doneOf i l ss s).trace = s.trace ∧ (doneOf i l ss s).inputs = s.inputs ∧
    (doneOf i l ss s).device = s.device ∧ (doneOf i l ss s).readLog = s.readLog := by
  cases i <;>
    simp [doneOf, doneNop, doneReset, doneWriteBit, doneReadBit, doneWriteByte, doneReadByte, doneReadTemp,
      doneCompensate, doneAltitude]

end Sys2Proof.Machine
end

