-- ==== Sys2Proof/Laws/PerInstr.lean ====
section
/-! SUPPORT. The families of per-instruction statements: `LegalOpcode`, a fact about each command as syntax. -/

namespace Sys2Proof.Laws

/-- The command is well formed, its opcode is one of the legal 0x0 to 0x8 (R91), and its word is one software may write. -/
def LegalOpcode.Statement (i : Instr) : Prop :=
  i.wellFormed = true ∧ i.opcode.toNat ≤ 8 ∧ commandWordWellFormed (encode i) = true

theorem LegalOpcode.nop : LegalOpcode.Statement .nop := by unfold LegalOpcode.Statement; decide
theorem LegalOpcode.reset : LegalOpcode.Statement .reset := by unfold LegalOpcode.Statement; decide
theorem LegalOpcode.writeBit : LegalOpcode.Statement .writeBit := by unfold LegalOpcode.Statement; decide
theorem LegalOpcode.readBit : LegalOpcode.Statement .readBit := by unfold LegalOpcode.Statement; decide
theorem LegalOpcode.writeByte : LegalOpcode.Statement .writeByte := by unfold LegalOpcode.Statement; decide
theorem LegalOpcode.readByte : LegalOpcode.Statement .readByte := by unfold LegalOpcode.Statement; decide
theorem LegalOpcode.readTemp : LegalOpcode.Statement .readTemp := by unfold LegalOpcode.Statement; decide
theorem LegalOpcode.compensate : LegalOpcode.Statement .compensate := by unfold LegalOpcode.Statement; decide
theorem LegalOpcode.altitude : LegalOpcode.Statement .altitude := by unfold LegalOpcode.Statement; decide

end Sys2Proof.Laws
end

