-- ==== Sys2Proof/Laws/Runs.lean ====
section
/-! SUPPORT. Runs of several steps: a run is one step and the rest, runs join, and `stepMany` is the host's run of the machine. -/

namespace Sys2Proof.Machine

/-- No step. -/
@[simp] theorem stepMany_zero (s : State) : stepMany 0 s = .next s := rfl

/-- A first step, then the rest. -/
theorem stepMany_next {s t : State} (k : Nat) (h : step s = .next t) : stepMany (k + 1) s = stepMany k t := by
  simp [stepMany, h]

/-- A run that answers has a first step that answers. -/
theorem stepMany_split {k : Nat} {s u : State} (h : stepMany (k + 1) s = .next u) :
    ∃ t, step s = .next t ∧ stepMany k t = .next u := by
  unfold stepMany at h
  split at h
  · next t ht => exact ⟨t, ht, h⟩
  · cases h
  · cases h

/-- Two runs join. -/
theorem stepMany_add {a b : Nat} {s t : State} (h : stepMany a s = .next t) : stepMany (a + b) s = stepMany b t := by
  induction a generalizing s with
  | zero =>
    cases h
    rw [Nat.zero_add]
  | succ a ih =>
    obtain ⟨u, h1, h2⟩ := stepMany_split h
    rw [show a + 1 + b = (a + b) + 1 by omega, stepMany_next _ h1, ih h2]

/-- `stepMany` is the host's run. -/
theorem stepMany_eq_run (k : Nat) (s : State) : stepMany k s = Host.Core.run Sys2Proof.core k s := by
  induction k generalizing s with
  | zero => rfl
  | succ k ih =>
    cases h : step s with
    | next t => rw [stepMany_next k h, ih]; simp [Host.Core.run, Sys2Proof.core, h]
    | fault f => simp [stepMany, Host.Core.run, Sys2Proof.core, h]
    | refused r => simp [stepMany, Host.Core.run, Sys2Proof.core, h]

end Sys2Proof.Machine
end

