-- ==== Sys2Proof/Tests/Slice0.lean ====
section
/-! SUPPORT. Tests from the spec's own vectors (spec/95_test_vectors.md, named in each docstring), the refusals of the syntax checks,
one written-out word per command, and a witness for the hypotheses of each statement that has some. -/

namespace Sys2Proof.Tests

open Sys2Proof Sys2Proof.Machine Sys2Proof.Statement

/-! ### Helpers -/

/-- One field of the next state; `none` when the machine stops. -/
def after {α : Type} (o : Host.Outcome State Fault Refusal) (f : State → α) : Option α :=
  match o with
  | .next s => some (f s)
  | .fault _ => none
  | .refused _ => none

/-- STATUS with the given eight bits. -/
def flags (v : Byte) : Status :=
  { busy := v[0], present := v[1], presA := v[2], presB := v[3], divz := v[4], altr := v[5], illegal := v[6], ovr := v[7] }

/-- The latches of command i with every operand zero. -/
def latchesOf (i : Instr) : Latches := { Latches.cleared with op := i.opcode }

/-- Command i running with event index k and the given samples; STATUS as given, BUSY among it. -/
def runningAt (i : Instr) (k : Nat) (samples : List Bit) (st : Byte) : State :=
  { State.reset with
    cmd := i.opcode
    status := flags st
    latch := latchesOf i
    events := eventList i (latchesOf i)
    ev := k
    samples := samples }

/-- Command i with every event performed: the completion step is next. -/
def endOf (i : Instr) (samples : List Bit) (st : Byte) : State :=
  runningAt i (eventList i (latchesOf i)).length samples st

/-- The state after reset with the given inputs to come. -/
def withInputs (is : List Input) : State := { State.reset with inputs := is }

/-- NOP running, with the given inputs to come. -/
def busyWith (is : List Input) : State := { endOf .nop [] 0x01 with inputs := is }

/-- The vendor's example calibration CALD, as 18 bytes. -/
def cald : Vector Byte 18 :=
  #v[0x7D, 0x8E, 0x43, 0xD6, 0xD0, 0x0B, 0x27, 0x0B, 0x8C, 0x00, 0xF9, 0xFF, 0x8C, 0x3C, 0xF8, 0xC6, 0x70, 0x17]

/-- COMPENSATE or ALTITUDE running on CALD and the given readings. -/
def pressureAt (i : Instr) (praw tfine : Word) : State :=
  { endOf i [] 0x01 with latch := { latchesOf i with praw := praw, tfine := tfine, cal := cald } }

/-- The bits of a byte, bit 0 first. -/
def lsbFirst (v : Byte) : List Bit := [v[0], v[1], v[2], v[3], v[4], v[5], v[6], v[7]]

/-- The eighteen samples of a READ_TEMP: the two presence samples, then b1 and b2. -/
def tempSamples (pa pb : Bit) (b1 b2 : Byte) : List Bit := pa :: pb :: (lsbFirst b1 ++ lsbFirst b2)

/-! ### The syntax checks refuse ill-formed terms -/

/-- M-7: a one-byte access (R62). -/
theorem test_access_byte_refused : accessDefined 0x08 .byte = false := by decide
/-- A two-byte access (R62). -/
theorem test_access_half_refused : accessDefined 0x08 .half = false := by decide
/-- An eight-byte access (R62). -/
theorem test_access_double_refused : accessDefined 0x08 .double = false := by decide
/-- M-8: a misaligned access (R62). -/
theorem test_access_misaligned_refused : accessDefined 0x02 .word = false := by decide
/-- An aligned word is accepted (R62). -/
theorem test_access_word_accepted : accessDefined 0x7C .word = true := by decide
/-- M-7 as an input to come. -/
theorem test_read_input_refused : Input.wellFormed (.hostRead 0x08 .byte) = false := by decide
/-- M-8 as an input to come. -/
theorem test_write_input_refused : Input.wellFormed (.hostWrite 0x02 .word 0) = false := by decide
/-- Software writes 0 to bits [31:4] (R90). -/
theorem test_command_word_reserved_bits_refused : commandWordWellFormed 0x00000013 = false := by decide
/-- A reserved opcode (R92). -/
theorem test_command_word_reserved_opcode_refused : commandWordWellFormed 0x00000009 = false := by decide
/-- No command is ill formed: it has no operand (R94). -/
theorem test_commands_well_formed : (Instr.nop.wellFormed && Instr.altitude.wellFormed) = true := by decide
/-- K-1. -/
theorem test_timing_k1_admitted : Timing.vectorK1.admitted = true := by decide
/-- K-2. -/
theorem test_timing_k2_refused : Timing.admitted { Timing.vectorK1 with tRs := 10 } = false := by decide
/-- K-3. -/
theorem test_timing_k3_refused : Timing.admitted { Timing.vectorK1 with tW0l := 60 } = false := by decide
/-- K-4. -/
theorem test_timing_k4_refused : Timing.admitted { Timing.vectorK1 with tRstw := 460 } = false := by decide
/-- `T_RSTL < T_RST` (R133). -/
theorem test_timing_reset_refused : Timing.admitted { Timing.vectorK1 with tRst := 480 } = false := by decide
/-- `T_W1L < T_SLOT` (R133). -/
theorem test_timing_w1_refused : Timing.admitted { Timing.vectorK1 with tW1l := 60 } = false := by decide
/-- `T_RL + T_RS < T_RSLOT` (R133). -/
theorem test_timing_read_refused : Timing.admitted { Timing.vectorK1 with tRslot := 16 } = false := by decide

/-! ### One written-out word per command (R90, R91) -/

theorem test_decode_nop : decode 0b00000000000000000000000000000000#32 = .ok .nop := by decide
theorem test_decode_reset : decode 0b00000000000000000000000000000001#32 = .ok .reset := by decide
theorem test_decode_write_bit : decode 0b00000000000000000000000000000010#32 = .ok .writeBit := by decide
theorem test_decode_read_bit : decode 0b11111111111111111111111111110011#32 = .ok .readBit := by decide
theorem test_decode_write_byte : decode 0b00000000000000000000000000000100#32 = .ok .writeByte := by decide
theorem test_decode_read_byte : decode 0b10000000000000000000000000000101#32 = .ok .readByte := by decide
theorem test_decode_read_temp : decode 0b00000000000000000000000000010110#32 = .ok .readTemp := by decide
theorem test_decode_compensate : decode 0b00000000000000000000000000000111#32 = .ok .compensate := by decide
theorem test_decode_altitude : decode 0b00000000000000000000000000001000#32 = .ok .altitude := by decide
/-- The first and the last reserved opcode (R92). -/
theorem test_decode_reserved :
    decode 0x00000009#32 = .error (.reservedOpcode 9) ∧ decode 0x0000000F#32 = .error (.reservedOpcode 15) := by decide
/-- The bytes of a word, lane 0 first (R65), and a wrong number of bytes (R90). -/
theorem test_decode_bytes :
    decodeBytes [0x06, 0x00, 0x00, 0x00] = .ok .readTemp ∧ decodeBytes [0x00, 0x00, 0x00, 0x06] = .ok .nop ∧
    decodeBytes [0x06, 0x00] = .error (.notOneWord 2) := by decide
/-- The table's numbering. -/
theorem test_decode_table_word :
    decodeTableWord 32 0x7 = some .compensate ∧ decodeTableWord 32 0xF = none := by decide

/-! ### Commands: one step each -/

/-- C-1: STATUS = 0x42, NOP accepted, then completed: ILLEGAL cleared, PRESENT kept. -/
theorem test_nop_accepted :
    after (exec .nop { State.reset with status := flags 0x42 }) (·.status.toWord) = some 0x00000003 := by decide
theorem test_nop_completes : after (exec .nop (endOf .nop [] 0x03)) (·.status.toWord) = some 0x00000002 := by decide

/-- B-1: the presence sample 0 sets PRESENT. -/
theorem test_reset_present : after (exec .reset (endOf .reset [false] 0x01)) (·.status.toWord) = some 0x00000002 := by
  decide
/-- B-2: the presence sample 1 clears it. -/
theorem test_reset_absent : after (exec .reset (endOf .reset [true] 0x03)) (·.status.toWord) = some 0x00000000 := by
  decide

/-- B-3: TXDATA = 0x03 sends the 1 slot. -/
theorem test_write_bit_one :
    after (exec .writeBit { State.reset with txdata := 0x03 }) (·.events)
      = some [.drive false, .drive true, .waitUs (60 - Config.timing.timing.tW1l)] := rfl
/-- B-4: TXDATA = 0xFE sends the 0 slot. -/
theorem test_write_bit_zero :
    after (exec .writeBit { State.reset with txdata := 0xFE }) (·.events)
      = some [.drive false, .waitUs Config.timing.timing.tW0l, .drive true] := rfl

/-- B-5: the sample 0. -/
theorem test_read_bit_zero : after (exec .readBit (endOf .readBit [false] 0x01)) (readReg .rxdata) = some 0 := by decide
/-- B-6: the sample 1. -/
theorem test_read_bit_one : after (exec .readBit (endOf .readBit [true] 0x01)) (readReg .rxdata) = some 1 := by decide

/-- B-7: 0xCC sends the slots 0, 0, 1, 1, 0, 0, 1, 1. -/
theorem test_write_byte_slots :
    after (exec .writeByte { State.reset with txdata := 0xCC }) (·.events)
      = some (wbit false ++ wbit false ++ wbit true ++ wbit true ++ wbit false ++ wbit false ++ wbit true ++ wbit true) :=
  rfl
/-- WRITE_BYTE writes no register at completion (R161). -/
theorem test_write_byte_completes :
    after (exec .writeByte (endOf .writeByte [] 0x01)) (fun s => (readReg .rxdata s, s.status.toWord)) = some (0, 0) := by
  decide

/-- B-8: samples 1, 0, 1, 0, 0, 1, 0, 1. -/
theorem test_read_byte :
    after (exec .readByte (endOf .readByte [true, false, true, false, false, true, false, true] 0x01)) (readReg .rxdata)
      = some 0x000000A5 := by decide
/-- B-8a: the last sample is bit 7. -/
theorem test_read_byte_last :
    after (exec .readByte (endOf .readByte [false, false, false, false, false, false, false, true] 0x01))
      (readReg .rxdata) = some 0x00000080 := by decide

/-- T-17: bytes 91 01, the second presence missing. -/
theorem test_read_temp :
    after (exec .readTemp (endOf .readTemp (tempSamples false true 0x91 0x01) 0x01))
      (fun s => (readReg .scratch s, readReg .temp s, s.status.toWord)) = some (0x00000191, 0x000009CA, 0x00000004) := by
  decide +kernel
/-- T-5: a negative value truncates toward zero. -/
theorem test_read_temp_negative :
    after (exec .readTemp (endOf .readTemp (tempSamples false false 0x5E 0xFF) 0x01))
      (fun s => (readReg .temp s, temperature16 s)) = some (0xFFFFFC0C, -1012) := by decide +kernel

/-- P-1. -/
theorem test_compensate :
    after (exec .compensate (pressureAt .compensate 415148 128422)) (fun s => (s.press, s.status.divz))
      = some (0x01892D41, false) := by decide +kernel
/-- P-6: the intermediates wrap. -/
theorem test_compensate_wraps :
    after (exec .compensate (pressureAt .compensate 415148 0x80000000)) (·.press) = some 0xECAF0FC1 := by decide +kernel

/-- ALTITUDE writes PRESS and DIVZ as COMPENSATE does: P-5. -/
theorem test_altitude_pressure :
    after (exec .altitude (pressureAt .altitude 0x80000000 128422)) (fun s => (s.press, s.status.divz))
      = some (0xFD694B54, false) := by decide +kernel
/-- A-5, A-1: the conversion of 60.5368... and of 44330.0 (R234). -/
theorem test_altitude_conversion :
    convertAltitude 0x404E44B6776239F5 = (60, false) ∧ convertAltitude 0x40E5A54000000000 = (44330, false) := by
  decide +kernel

/-! ### Arithmetic -/

/-- A-5: `t1 = 1006 / 1013.25` = 0.9928448063163089, and `a` from its t2 = 0.9986344051786405. -/
theorem test_altitude_formula :
    fdiv (f64OfNat 1006) f64SeaLevel = 0x3FEFC56278A4395A#64 ∧
    fmul f64Scale (fsub f64One 0x3FEFF4D023DCE2B5#64) = 0x404E44B6776239F5#64 := by decide +kernel
/-- U-1: digP1 is 36477, digP2 is -10685. -/
theorem test_unpack : (unpack cald).p1 = 36477 ∧ (unpack cald).p2 = -10685 ∧ (unpack cald).p9 = 6000 := by decide
/-- The division's overflow case (R195). -/
theorem test_division_overflow : tdiv64 (BitVec.ofInt 64 (-(2 ^ 63))) (-1) = BitVec.ofInt 64 (-(2 ^ 63)) := by decide
/-- Truncation toward zero and floor differ below zero (R190). -/
theorem test_shift_and_division : sar64 (-7) 1 = -4 ∧ tdiv64 (-7) 2 = -3 := by decide

/-! ### The window, the lifecycle and reset -/

/-- M-2: TXDATA keeps eight bits. -/
theorem test_txdata_reserved_bits :
    after (step (withInputs [.hostWrite 0x08 .word 0x000001FF])) (readReg .txdata) = some 0x000000FF := by decide
/-- M-3: CAL4 keeps sixteen bits. -/
theorem test_cal4_reserved_bits :
    after (step (withInputs [.hostWrite 0x50 .word 0xFFFFFFFF])) (readReg .cal4) = some 0x0000FFFF := by decide
/-- M-4: a write to STATUS is ignored. -/
theorem test_status_read_only :
    after (step (withInputs [.hostWrite 0x04 .word 0xFFFFFFFF])) (readReg .status) = some 0 := by decide
/-- SCRATCH reads 16 bits, with zeros above (R35). -/
theorem test_scratch_reads :
    after (step { withInputs [.hostRead 0x10 .word] with scratch := 0x8191 }) (·.readLog)
      = some [{ off := 0x10, value := 0x00008191 }] := by decide
/-- M-6: a reserved offset reads 0. -/
theorem test_reserved_offset_reads_zero :
    after (step (withInputs [.hostRead 0x28 .word])) (·.readLog) = some [{ off := 0x28, value := 0 }] := by decide
/-- M-7: the model fault of a one-byte read. -/
theorem test_byte_read_faults :
    step (withInputs [.hostRead 0x08 .byte]) = .fault (.badAccess (Config.base + 8) 1) := rfl
/-- C-2: a reserved opcode. -/
theorem test_illegal_command :
    after (step (withInputs [.hostWrite 0x00 .word 0x9])) (fun s => (readReg .cmd s, s.status.toWord))
      = some (0x00000009, 0x00000040) := by decide
/-- C-5: bits [31:4] are ignored. -/
theorem test_reserved_bits_ignored :
    after (step (withInputs [.hostWrite 0x00 .word 0xFFFFFFF3])) (fun s => (readReg .cmd s, s.status.toWord))
      = some (0x00000003, 0x00000001) := by decide
/-- C-7: a reserved opcode written while a READ_TEMP runs is dropped: OVR only. -/
theorem test_dropped_command :
    after (step { runningAt .readTemp 0 [] 0x01 with inputs := [.hostWrite 0x00 .word 0xA] })
      (fun s => (readReg .cmd s, s.status.toWord)) = some (0x00000006, 0x00000081) := by decide
/-- C-9: TXDATA written while WRITE_BIT runs does not reach the latch. -/
theorem test_operand_write_while_busy :
    after (step { runningAt .writeBit 0 [] 0x01 with inputs := [.hostWrite 0x08 .word 0xFF] })
      (fun s => (s.txdata, s.latch.txd)) = some (0xFF, 0x00) := by decide
/-- R-2: a reset while the line is low. -/
theorem test_reset_input_while_low :
    after (step { runningAt .reset 1 [] 0x01 with drive := false, trace := [.drive false], inputs := [.reset] })
      (fun s => (s.trace, s.drive, s.status.toWord)) = some ([.drive false, .abort, .drive true], true, 0) := by decide
/-- R-4: a reset while idle adds no event. -/
theorem test_reset_input_while_idle :
    after (step { withInputs [.reset] with status := flags 0x12, trace := [.drive true] })
      (fun s => (s.trace, s.status.toWord)) = some ([.drive true], 0) := by decide
/-- WIRE (R76): the sample after the release is 1. -/
theorem test_wire_sample :
    after (step { runningAt .readBit 3 [] 0x01 with device := .wire }) (·.samples) = some [true] := by decide
/-- ECHO (R76): the answers at a presence sample and at the second read slot after it. -/
theorem test_echo_answers :
    echoAnswer [true, false] [.drive false, .waitUs 480, .drive true, .waitUs 70] = false ∧
    echoAnswer [true, false] [.drive false, .waitUs 480, .drive true, .waitUs 70, .sample false, .waitUs 410,
      .drive false, .drive true, .waitUs 12] = true ∧
    echoAnswer [true, false] [.drive false, .waitUs 480, .drive true, .waitUs 70, .sample false, .waitUs 410,
      .drive false, .drive true, .waitUs 12, .sample true, .waitUs 44, .drive false, .drive true, .waitUs 12] = false := by
  decide

/-! ### Witnesses: for each statement with hypotheses, states and operands that meet them, clause by clause -/

/-- The engine at the presence sample of a RESET, as a run reaches it. -/
def atPresence : State :=
  { runningAt .reset 4 [] 0x01 with
    trace := [.drive false, .waitUs phaseRst1, .drive true, .waitUs phaseRst2] }

theorem witness_NopAcceptsAndCompletes :
    State.reset.status.busy = false ∧ runs .nop (endOf .nop [] 0x01) ∧ atEnd (endOf .nop [] 0x01) :=
  ⟨rfl, ⟨rfl, rfl⟩, Nat.le_refl _⟩

theorem witness_ResetReportsPresence :
    State.reset.status.busy = false ∧ runs .reset (endOf .reset [false] 0x01) ∧ atEnd (endOf .reset [false] 0x01) ∧
    (endOf .reset [false] 0x01).samples = [false] := ⟨rfl, ⟨rfl, rfl⟩, Nat.le_refl _, rfl⟩

theorem witness_WriteBitSendsBitZero :
    State.reset.status.busy = false ∧ runs .writeBit (endOf .writeBit [] 0x01) ∧ atEnd (endOf .writeBit [] 0x01) :=
  ⟨rfl, ⟨rfl, rfl⟩, Nat.le_refl _⟩

theorem witness_ReadBitReturnsSample :
    State.reset.status.busy = false ∧ runs .readBit (endOf .readBit [true] 0x01) ∧ atEnd (endOf .readBit [true] 0x01) ∧
    (endOf .readBit [true] 0x01).samples = [true] := ⟨rfl, ⟨rfl, rfl⟩, Nat.le_refl _, rfl⟩

theorem witness_WriteByteSendsEightSlots :
    State.reset.status.busy = false ∧ runs .writeByte (endOf .writeByte [] 0x01) ∧
    atEnd (endOf .writeByte [] 0x01) := ⟨rfl, ⟨rfl, rfl⟩, Nat.le_refl _⟩

theorem witness_ReadByteAssemblesSamples :
    State.reset.status.busy = false ∧ runs .readByte (endOf .readByte (lsbFirst 0xA5) 0x01) ∧
    atEnd (endOf .readByte (lsbFirst 0xA5) 0x01) ∧
    (endOf .readByte (lsbFirst 0xA5) 0x01).samples = [true, false, true, false, false, true, false, true] :=
  ⟨rfl, ⟨rfl, rfl⟩, Nat.le_refl _, rfl⟩

theorem witness_ReadTempScalesRawValue :
    State.reset.status.busy = false ∧ runs .readTemp (endOf .readTemp (tempSamples false true 0x01 0x80) 0x01) ∧
    atEnd (endOf .readTemp (tempSamples false true 0x01 0x80) 0x01) ∧
    (endOf .readTemp (tempSamples false true 0x01 0x80) 0x01).samples
      = [false, true, true, false, false, false, false, false, false, false, false, false, false, false, false, false,
          false, true] := ⟨rfl, ⟨rfl, rfl⟩, Nat.le_refl _, rfl⟩

theorem witness_CompensateWritesPressure :
    State.reset.status.busy = false ∧ runs .compensate (pressureAt .compensate 415148 128422) ∧
    atEnd (pressureAt .compensate 415148 128422) := ⟨rfl, ⟨rfl, rfl⟩, Nat.le_refl _⟩

theorem witness_AltitudeWritesResults :
    State.reset.status.busy = false ∧ runs .altitude (pressureAt .altitude 415148 128422) ∧
    atEnd (pressureAt .altitude 415148 128422) ∧ comp 415148 128422 cald = (0x01892D41, false) :=
  ⟨rfl, ⟨rfl, rfl⟩, Nat.le_refl _, by decide +kernel⟩

theorem witness_EventStepPerformsOneEvent :
    (runs .reset (runningAt .reset 0 [] 0x01) ∧ (runningAt .reset 0 [] 0x01).events[0]? = some (.drive false)) ∧
    (runningAt .reset 1 [] 0x01).events[1]? = some (.waitUs phaseRst1) ∧
    (runs .readTemp (runningAt .readTemp 54 [] 0x01) ∧
      (runningAt .readTemp 54 [] 0x01).events[54]? = some (.waitMs 750)) ∧
    (runningAt .reset 4 [] 0x01).events[4]? = some .sample :=
  ⟨⟨⟨rfl, rfl⟩, rfl⟩, rfl, ⟨⟨rfl, rfl⟩, rfl⟩, rfl⟩

theorem witness_CompletionWriteSets :
    runs .nop (endOf .nop [] 0x01) ∧ atEnd (endOf .nop [] 0x01) ∧ Instr.nop ≠ .readBit ∧ Instr.nop ≠ .readByte ∧
    Instr.nop ≠ .readTemp ∧ Instr.nop ≠ .compensate ∧ Instr.nop ≠ .altitude ∧ Instr.nop ≠ .reset :=
  ⟨⟨rfl, rfl⟩, Nat.le_refl _, by decide, by decide, by decide, by decide, by decide, by decide⟩

theorem witness_OtherCommandIsTurnedAway :
    (runningAt .readTemp 0 [] 0x01).status.busy = true ∧ (runningAt .readTemp 0 [] 0x01).latch.op ≠ Instr.reset.opcode :=
  by decide

theorem witness_StepRunsDecodedCommand :
    ((withInputs [.hostWrite 0x00 .word 8]).inputs = [.hostWrite 0x00 .word 8] ∧
      (withInputs [.hostWrite 0x00 .word 8]).status.busy = false ∧ decode 8 = .ok .altitude) ∧
    ((busyWith [.engineTurn]).inputs = [.engineTurn] ∧ (busyWith [.engineTurn]).status.busy = true ∧
      decodeOp (busyWith [.engineTurn]).latch.op = .ok .nop) ∧
    ((busyWith []).inputs = [] ∧ (busyWith []).status.busy = true ∧ decodeOp (busyWith []).latch.op = .ok .nop) := by
  decide

theorem witness_FetchedWordRunsNext :
    decodeTableWord 32 0xFFFFFFF8 = some .altitude ∧ decodeTableWord 8 0x100 = some .nop := by decide

theorem witness_LegalCommandIsAccepted :
    (withInputs [.hostWrite 0x00 .word 0xFFFFFFF8]).inputs = [.hostWrite 0x00 .word 0xFFFFFFF8] ∧
    (withInputs [.hostWrite 0x00 .word 0xFFFFFFF8]).status.busy = false ∧
    (0xFFFFFFF8 : Word).toNat % 16 = Instr.altitude.opcode.toNat ∧ (0 : Word).toNat % 16 = Instr.nop.opcode.toNat := by
  decide

theorem witness_ReservedOpcodeSetsIllegal :
    (withInputs [.hostWrite 0x00 .word 9]).inputs = [.hostWrite 0x00 .word 9] ∧
    (withInputs [.hostWrite 0x00 .word 9]).status.busy = false ∧ 9 ≤ (9 : Word).toNat % 16 ∧
    9 ≤ (0xFFFFFFFF : Word).toNat % 16 := by decide

theorem witness_BusyCommandWriteIsDropped :
    (busyWith [.hostWrite 0x00 .word 0]).inputs = [.hostWrite 0x00 .word 0] ∧
    (busyWith [.hostWrite 0x00 .word 0]).status.busy = true := by decide

theorem witness_IdleEngineDoesNothing :
    State.reset.status.busy = false ∧ State.reset.inputs = [] ∧
    (withInputs [.engineTurn]).status.busy = false ∧ (withInputs [.engineTurn]).inputs = [.engineTurn] := by decide

/-- The first and the last register, the ends of the reserved offsets. -/
theorem witness_HostReadReturnsRegister :
    ∀ off ∈ [0x00#7, 0x24, 0x28, 0x3C, 0x40, 0x50, 0x54, 0x7C],
      (withInputs [.hostRead off .word]).inputs = [.hostRead off .word] ∧ off.toNat % 4 = 0 := by decide

theorem witness_PollReadsStatusUntilIdle :
    (withInputs [.poll]).inputs = [.poll] ∧ (withInputs [.poll]).status.busy = false ∧
    (busyWith [.poll]).inputs = [.poll] ∧ (busyWith [.poll]).status.busy = true := by decide

theorem witness_UndefinedAccessFaults :
    ((Width.byte ≠ .word ∨ (0x08#7).toNat % 4 ≠ 0) ∧ (withInputs [.hostRead 0x08 .byte]).inputs = [.hostRead 0x08 .byte]) ∧
    ((Width.word ≠ .word ∨ (0x02#7).toNat % 4 ≠ 0) ∧
      (withInputs [.hostWrite 0x02 .word 0]).inputs = [.hostWrite 0x02 .word 0]) ∧ (0x7F#7).toNat % 4 ≠ 0 := by decide

theorem witness_WritableRegistersStore :
    ∀ off ∈ [0x08#7, 0x18, 0x1C, 0x40, 0x44, 0x48, 0x4C, 0x50],
      (withInputs [.hostWrite off .word 0xFFFFFFFF]).inputs = [.hostWrite off .word 0xFFFFFFFF] := by decide

theorem witness_ReadOnlyWritesAreIgnored :
    ∀ off ∈ [0x04#7, 0x0C, 0x10, 0x14, 0x20, 0x24, 0x28, 0x3C, 0x54, 0x7C],
      (withInputs [.hostWrite off .word 5]).inputs = [.hostWrite off .word 5] ∧ off.toNat % 4 = 0 ∧
      (off.toNat ∈ [0x04, 0x0C, 0x10, 0x14, 0x20, 0x24] ∨ (0x28 ≤ off.toNat ∧ off.toNat ≤ 0x3C) ∨ 0x54 ≤ off.toNat) := by
  decide

theorem witness_StatusWordLayout : 8 ≤ 8 ∧ (flags 0xFF).toWord.getLsbD 8 = false := by decide

theorem witness_ResetInputClearsEngine :
    ((withInputs [.reset]).inputs = [.reset] ∧ (withInputs [.reset]).status.busy = false) ∧
    ({ busyWith [.reset] with drive := false }.inputs = [.reset] ∧
      { busyWith [.reset] with drive := false }.status.busy = true ∧ { busyWith [.reset] with drive := false }.drive = false) ∧
    ((busyWith [.reset]).inputs = [.reset] ∧ (busyWith [.reset]).status.busy = true ∧ (busyWith [.reset]).drive = true) := by decide

theorem witness_ConfigurationIsAdmitted : par.tRstl ∈ par.phases ∧ par.tRslot - par.tRl - par.tRs ∈ par.phases := by
  simp [Timing.phases]

/-- The first address above the window. -/
theorem witness_WindowAddressDecodes :
    Config.base + 0x80 < Config.base ∨ Config.base + 0x80 ≤ Config.base + 0x80 := .inr (Nat.le_refl _)

theorem witness_FixedPointOperationsWrap : (-1 : DWord) ≠ 0 := by decide

/-- P-16 and P-15: the guard with digP1 = 0, and with a product of exactly 0. -/
theorem witness_GuardFiresExactly :
    field State.reset.cal.bytes 0 = 0 ∧ (comp 0 0 State.reset.cal.bytes).2 = true ∧ (comp 415148 128422 cald).2 = false := by
  decide +kernel

/-- The ends of the two ranges. -/
theorem witness_TemperatureScaleTruncates :
    0 ≤ (0x0000#16).toInt ∧ 0 ≤ (0x7FFF#16).toInt ∧ (0xFFFF#16).toInt < 0 ∧ (0x8000#16).toInt < 0 := by decide

theorem witness_SixteenBitTemperatureView :
    runs .readTemp (endOf .readTemp (tempSamples false false 0x7A 0x14) 0x01) ∧
    atEnd (endOf .readTemp (tempSamples false false 0x7A 0x14) 0x01) := ⟨⟨rfl, rfl⟩, Nat.le_refl _⟩

theorem witness_IntegersConvertExactly : 0 < 2 ^ 53 ∧ 2 ^ 53 - 1 < 2 ^ 53 := by decide

/-- A tie (three halves of a unit lie between one and two units), the first magnitude that rounds to infinity, and finite
operands of either sign, of different and of equal value, the difference (-0) - (+0) among them. -/
theorem witness_RoundsToNearestEven :
    (3 < 2 * ((2 ^ 54 - 1) * 2 ^ 2044) ∧ distance 2 3 2 = distance 1 3 2 ∧ magnitude 1 ≠ magnitude 2) ∧
    1 * ((2 ^ 54 - 1) * 2 ^ 2044) ≤ (2 ^ 54 - 1) * 2 ^ 2044 ∧
    (isFinite 0x7FEFFFFFFFFFFFFF ∧ isFinite 0x8000000000000000 ∧ isFinite 0 ∧ isNegative 0x8000000000000000) ∧
    magnitude 0x408FAA0000000000 ≠ 0 ∧ valueOf 0x3FF0000000000000 ≠ valueOf 0xBFF0000000000000 ∧
    valueOf 0x8000000000000000 = valueOf 0 := by
  unfold isFinite isNegative
  decide +kernel

/-- A NaN, -1.0, 2^32, and the value zero. -/
theorem witness_AltitudeConversionTruncates :
    f64IsNaN 0x7FF8000000000000 = true ∧ f64IsNaN 0xBFF0000000000000 = false ∧
    f64Value 0xBFF0000000000000 ≤ -(unitsPerOne : Int) ∧ 2 ^ 32 * (unitsPerOne : Int) ≤ f64Value 0x41F0000000000000 ∧
    -(unitsPerOne : Int) < f64Value 0 ∧ f64Value 0 < 2 ^ 32 * (unitsPerOne : Int) := by decide +kernel

theorem witness_AltitudeOfSmallPressure :
    (fun _ _ => 0x0000000000000000#64 : DWord → DWord → DWord) 0x0000000000000000#64 0x3FC85BC01A36E2EB#64
      = 0x0000000000000000#64 ∧ (25599 : Word).toNat < 25600 := by decide

theorem witness_TimedPhasesAreRealisable : BusOp.waitUs phaseRst1 ∈ eventList .reset Latches.cleared := by
  simp [eventList, eventsReset, rst]

theorem witness_NominalWaitTotals :
    (flags 0x01).busy = true ∧ ({ Latches.cleared with txd := 0x01 } : Latches).txd[0] = true ∧
    Latches.cleared.txd[0] = false ∧ Instr.nop ≠ .readTemp := by decide

theorem witness_StepKeepsInv :
    (withInputs [.hostWrite 0x00 .word 1]).Inv ∧
    ∃ t, step (withInputs [.hostWrite 0x00 .word 1]) = .next t ∧ t.status.busy = true :=
  ⟨⟨by decide, by decide, nofun, nofun, nofun, by decide, by decide, by decide, by decide, by decide⟩, _, rfl, rfl⟩

theorem witness_DefinedAccessesNeverStop :
    (withInputs [.hostWrite 0x7C .word 1]).Inv ∧ inputsDefined (withInputs [.hostWrite 0x7C .word 1]) :=
  ⟨⟨by decide, by decide, nofun, nofun, nofun, by decide, by decide, by decide, by decide, by decide⟩,
    by unfold inputsDefined; decide⟩

theorem witness_CommandCompletesOnTime : State.reset.status.busy = false ∧ State.reset.inputs = [] := by decide

theorem witness_FramingLaw :
    { State.reset with device := .script (bitsOf 0x5A ++ [true]) }.status.busy = false ∧
    { State.reset with device := .script (bitsOf 0x5A ++ [true]) }.inputs = [] := by decide

theorem witness_RunOfCommandEnds :
    (withInputs (hostRun .readTemp)).status.busy = false ∧ (withInputs (hostRun .readTemp)).inputs = hostRun .readTemp := by
  decide

theorem witness_WireSamplesReadOne :
    State.reset.device = .free ∧ { State.reset with device := .wire }.device = .wire ∧ atPresence.Inv ∧
    atPresence.status.busy = true ∧ atPresence.events[atPresence.ev]? = some .sample := by
  refine ⟨rfl, rfl, ⟨by decide, by decide, fun _ => ⟨rfl, .reset, rfl, rfl⟩, fun _ => ⟨[], rfl⟩, fun _ => rfl, nofun, nofun,
    by decide, nofun, ?_⟩, rfl, rfl⟩
  decide

theorem witness_TraceOnlyGrows : ∃ t, step atPresence = .next t ∧ t.trace ≠ atPresence.trace :=
  ⟨_, rfl, fun h => by
    have := congrArg List.length h
    simp [performEvent] at this⟩

theorem witness_RunningCommandIsFixed :
    atPresence.status.busy = true ∧ ∃ t, step atPresence = .next t ∧ t.status.busy = true := ⟨rfl, _, rfl, rfl⟩

theorem witness_ResultsChangeAtCompletion :
    (∃ t, step atPresence = .next t ∧ t.status.busy = true) ∧ (∀ rest, atPresence.inputs ≠ .reset :: rest) ∧
    (∃ t, step (withInputs [.poll]) = .next t) ∧ (withInputs [.poll]).status.busy = false :=
  ⟨⟨_, rfl, rfl⟩, fun _ => by simp [atPresence, runningAt, State.reset], ⟨_, rfl⟩, rfl⟩

theorem witness_EngineNeverWritesOperands :
    atPresence.inputs = [] ∧ (∃ t, step atPresence = .next t) ∧ (busyWith [.engineTurn]).inputs = [.engineTurn] ∧
    ∃ t, step (busyWith [.engineTurn]) = .next t := ⟨rfl, ⟨_, rfl⟩, rfl, _, rfl⟩

/-- A host read and a dropped command between two engine turns. -/
theorem witness_SamplesNeverSteer :
    ∃ t, stepMany 4 { atPresence with inputs := [.engineTurn, .hostRead 0x04 .word, .hostWrite 0x00 .word 1, .engineTurn] }
      = .next t ∧ t.ev = 6 := ⟨_, rfl, rfl⟩

theorem witness_CompensateIsPure :
    State.reset.status.busy = false ∧ ∃ t, exec .compensate State.reset = .next t := ⟨rfl, _, rfl⟩

theorem witness_SetPStoresCoefficients :
    (withInputs (hostSetP (Vector.replicate 9 0x8001))).inputs = hostSetP (Vector.replicate 9 0x8001) := rfl

end Sys2Proof.Tests
end

section
/-! The STATUS word bit by bit (R23, R32). -/

namespace Sys2Proof.Machine

/-- Below bit 8 each flag stands at the bit R23 gives it: widening moves none, and each append moves the flags above
it by one. -/
theorem Status.toWord_low (f : Status) (k : Fin 8) :
    f.toWord.getLsbD k = [f.busy, f.present, f.presA, f.presB, f.divz, f.altr, f.illegal, f.ovr].get k := by
  simp only [Status.toWord, BitVec.getLsbD_setWidth, BitVec.getLsbD_append, BitVec.getLsbD_ofBool]
  fin_cases k <;> simp

/-- R32: only eight flags are packed, so widening fills every bit from 8 on with 0. -/
theorem Status.toWord_high (f : Status) {k : Nat} (hk : 8 ≤ k) : f.toWord.getLsbD k = false := by
  rw [Status.toWord, BitVec.getLsbD_setWidth, BitVec.getLsbD_of_ge _ _ hk, Bool.and_false]

/-- Settles O24: the low eight bits one by one, then the reserved ones. -/
theorem statusWordLayout : Obligations.StatusWordLayout := by
  intro f
  exact ⟨f.toWord_low 0, f.toWord_low 1, f.toWord_low 2, f.toWord_low 3, f.toWord_low 4, f.toWord_low 5,
    f.toWord_low 6, f.toWord_low 7, fun _ hk => f.toWord_high hk⟩

end Sys2Proof.Machine
end

section
/-! The calibration window byte by byte (R41, R65, R66). -/

namespace Sys2Proof.Machine

/-- Each byte of the assembled buffer is the window's calibration byte of that number (R41). -/
theorem CalWindow.bytes_getElem (c : CalWindow) {k : Nat} (hk : k < 18) : c.bytes[k] = c.byte k := by
  simp [CalWindow.bytes]

/-- The five calibration words follow each other from offset 0x40 on (R61). -/
theorem readOffset_cal (s : State) (m : Fin 5) : readOffset (BitVec.ofNat 7 (0x40 + 4 * m.val)) s = s.cal.word m.val := by
  fin_cases m <;> rfl

/-- The window's view and the operand assembly name the same calibration byte (R41, R65): 0x40 is a multiple of 4, so
offset 0x40 + k has the lane of k and the word of k. -/
theorem windowByte_cal (s : State) {k : Nat} (hk : k < 18) :
    windowByte (BitVec.ofNat 7 (0x40 + k)) s = s.cal.byte k := by
  have hoff : (BitVec.ofNat 7 (0x40 + k)).toNat = 0x40 + k := Nat.mod_eq_of_lt (by omega)
  have hword : 4 * ((0x40 + k) / 4) = 0x40 + 4 * (k / 4) := by omega
  have hlane : (0x40 + k) % 4 = k % 4 := by omega
  rw [windowByte, hoff, hword, hlane, readOffset_cal s ⟨k / 4, by omega⟩, CalWindow.byte]

/-- Two adjacent bytes of a number, the low one first, are 16 of its bits (R66). -/
theorem adjacent_bytes (x j : Nat) :
    x / 2 ^ (8 * j) % 256 + 256 * (x / 2 ^ (8 * (j + 1)) % 256) = x / 2 ^ (8 * j) % 65536 := by
  have hnext : x / 2 ^ (8 * (j + 1)) = x / 2 ^ (8 * j) / 2 ^ 8 := by
    rw [Nat.div_div_eq_div_mul, Nat.mul_succ, pow_add]
  rw [hnext]
  omega

/-- Field i is half word i mod 2 of CAL(i div 2): bytes 2i and 2i+1 never straddle two words (R41, R66). -/
theorem field_calBytes (c : CalWindow) (i : Fin 9) :
    Statement.field c.bytes i = (c.word (i.val / 2)).toNat / 2 ^ (8 * (2 * (i.val % 2))) % 65536 := by
  obtain ⟨hwordLo, hwordHi⟩ : 2 * i.val / 4 = i.val / 2 ∧ (2 * i.val + 1) / 4 = i.val / 2 := by omega
  obtain ⟨hlaneLo, hlaneHi⟩ : 2 * i.val % 4 = 2 * (i.val % 2) ∧ (2 * i.val + 1) % 4 = 2 * (i.val % 2) + 1 := by omega
  rw [Statement.field, c.bytes_getElem, c.bytes_getElem, calWindow_byte_toNat, calWindow_byte_toNat,
    hwordLo, hwordHi, hlaneLo, hlaneHi, adjacent_bytes]

/-- Settles O32: each byte in its two readings, then the fields at half word 0 and at half word 1. -/
theorem calibrationBytesLittleEndian : Obligations.CalibrationBytesLittleEndian := by
  intro s
  refine ⟨fun k => ?_, fun m => ?_, fun m => ?_⟩
  · rw [s.cal.bytes_getElem k.isLt]
    exact ⟨(windowByte_cal s k.isLt).symm, calWindow_byte_toNat s.cal k.val⟩
  · have hword : 2 * m.val / 2 = m.val := by omega
    have hhalf : 2 * m.val % 2 = 0 := by omega
    simp [field_calBytes, hword, hhalf]
  · have hword : (2 * m.val + 1) / 2 = m.val := by omega
    have hhalf : (2 * m.val + 1) % 2 = 1 := by omega
    have hlt := (s.cal.word m.val).isLt
    simp only [field_calBytes, hword, hhalf]
    omega

end Sys2Proof.Machine
end

section
/-! Host writes that change nothing (R63, R64). -/

namespace Sys2Proof.Machine

/-- The read-only registers of R64. -/
def readOnlyRegs : List Reg := [.status, .rxdata, .scratch, .temp, .press, .alt]

/-- R64 at the register: the write changes no field. -/
theorem writeReg_readOnly {r : Reg} (hr : r ∈ readOnlyRegs) (v : Word) (s : State) : writeReg r v s = s := by
  simp only [readOnlyRegs, List.mem_cons, List.not_mem_nil, or_false] at hr
  rcases hr with rfl | rfl | rfl | rfl | rfl | rfl <;> rfl

/-- A defined write where no register stands (R63), or only a read-only one (R64), changes nothing. -/
theorem hostWrite_ignored {off : BitVec 7} {width : Width} (hd : accessDefined off width = true)
    (hro : ∀ r, regAt off = some r → r ∈ readOnlyRegs) (v : Word) (s : State) : hostWrite off width v s = .next s := by
  rw [hostWrite, if_pos hd]
  split
  · next hcmd => exact absurd (hro .cmd hcmd) (by decide)
  · next r _ hr => rw [writeReg_readOnly (hro r hr)]
  · rfl

/-- Among the read-only and the reserved offsets of the register map, only read-only registers stand (R61, R63, R64). -/
theorem readOnly_of_regOffset {r : Reg}
    (h : (regOffset r).toNat ∈ [0x04, 0x0C, 0x10, 0x14, 0x20, 0x24] ∨
      (0x28 ≤ (regOffset r).toNat ∧ (regOffset r).toNat ≤ 0x3C) ∨ 0x54 ≤ (regOffset r).toNat) : r ∈ readOnlyRegs := by
  revert h
  cases r <;> decide

/-- Settles O23: the write is defined, and what stands at its offset, if anything, is read-only. -/
theorem readOnlyWritesAreIgnored : Obligations.ReadOnlyWritesAreIgnored := by
  intro s off v rest hin halign hoff
  rw [step_cons hin]
  refine hostWrite_ignored (by simp [accessDefined, halign]) (fun r hr => ?_) v _
  obtain rfl := (regAt_eq_some_iff off r).1 hr
  exact readOnly_of_regOffset hoff

end Sys2Proof.Machine
end

section
/-! A host write to CMD while the engine is idle (R110, R111). -/

namespace Sys2Proof.Machine

/-- A command word is decoded by its value mod 16: bits [31:4] do not count (R90). -/
theorem decode_ok_iff (v : Word) (i : Instr) : decode v = .ok i ↔ v.toNat % 16 = i.opcode.toNat := by
  rw [decode, decodeOp_ok_iff, ← BitVec.toNat_inj, opField_toNat, eq_comm]

/-- A command word is rejected when its value mod 16 is one of the reserved opcodes 9 to 15 (R92). -/
theorem decode_error_iff (v : Word) : decode v = .error (.reservedOpcode (opField v)) ↔ 9 ≤ v.toNat % 16 := by
  rw [decode, decodeOp_error_iff, opField_toNat]

/-- A 32-bit host write at offset 0 is a defined access, and the register there is CMD (R61, R62). -/
theorem step_hostWrite_cmd {s : State} {v : Word} {rest : List Input}
    (hin : s.inputs = .hostWrite 0x00 .word v :: rest) : step s = commandWrite v { s with inputs := rest } := by
  have hdefined : accessDefined 0x00 .word = true := by decide
  have hcmd : regAt 0x00 = some .cmd := (regAt_eq_some_iff _ _).2 rfl
  rw [step_cons hin, takeInput, hostWrite, if_pos hdefined, hcmd]

/-- R110: idle, a word that decodes is accepted. -/
theorem commandWrite_accepts {s : State} {v : Word} {i : Instr} (hidle : s.status.busy = false)
    (hd : decode v = .ok i) : commandWrite v s = .next (accept i.opcode (eventList i) s) := by
  simp [commandWrite, hidle, hd, exec_eq_runCommand, runCommand_idle]

/-- R111: idle, a word that is rejected is recorded as illegal. -/
theorem commandWrite_illegal {s : State} {v : Word} {r : Reject} (hidle : s.status.busy = false)
    (hd : decode v = .error r) : commandWrite v s = .next (illegalCommand v s) := by
  simp [commandWrite, hidle, hd]

/-- Settles O15: the write reaches the decoder, the word decodes to the command, and acceptance writes what R110 lists. -/
theorem legalCommandIsAccepted : Obligations.LegalCommandIsAccepted := by
  intro s i v rest hin hidle hop
  rw [step_hostWrite_cmd hin, commandWrite_accepts (s := { s with inputs := rest }) hidle ((decode_ok_iff v i).2 hop)]
  rfl

/-- Settles O16: the write reaches the decoder, which rejects the word, and only CMD, ILLEGAL and OVR are written. -/
theorem reservedOpcodeSetsIllegal : Obligations.ReservedOpcodeSetsIllegal := by
  intro s v rest hin hidle hop
  rw [step_hostWrite_cmd hin, commandWrite_illegal (s := { s with inputs := rest }) hidle ((decode_error_iff v).2 hop),
    illegalCommand, opField_eq_ofNat]
  rfl

end Sys2Proof.Machine
end

section
/-! The line after each event list: every sequence pulls the line low first and leaves it released (R142). -/

namespace Sys2Proof.Machine

/-- What R142 says of a bus sequence: it begins by pulling the line low, and leaves a released line released. -/
structure IsPulse (es : List BusOp) : Prop where
  /-- Its first event is `Drive(0)`. -/
  pulls : es.head? = some (.drive false)
  /-- From a released line its events lead back to a released line. -/
  releases : driveAfter es true = true

theorem rst_isPulse : IsPulse rst := ⟨rfl, rfl⟩

theorem rbit_isPulse : IsPulse rbit := ⟨rfl, rfl⟩

theorem wbit_isPulse (b : Bit) : IsPulse (wbit b) := ⟨by cases b <;> rfl, driveAfter_wbit b true⟩

/-- What follows a pulse need only keep the line released: the first event stays the pulse's own. -/
theorem IsPulse.append {a b : List BusOp} (ha : IsPulse a) (hb : driveAfter b true = true) : IsPulse (a ++ b) where
  pulls := by rw [List.head?_append, ha.pulls, Option.some_or]
  releases := by rw [driveAfter_append, ha.releases, hb]

/-- One pulse or more in a row are a pulse. -/
theorem IsPulse.flatMap_range {f : Nat → List BusOp} (hf : ∀ i, IsPulse (f i)) (n : Nat) :
    IsPulse ((List.range (n + 1)).flatMap f) := by
  induction n with
  | zero => simpa using hf 0
  | succ n ih =>
    rw [List.range_succ, List.flatMap_append]
    exact ih.append (by simpa using (hf (n + 1)).releases)

theorem wbyte_isPulse (v : Byte) : IsPulse (wbyte v) := IsPulse.flatMap_range (fun _ => wbit_isPulse _) 7

theorem rbyte_isPulse : IsPulse rbyte := IsPulse.flatMap_range (fun _ => rbit_isPulse) 7

/-- READ_TEMP is a reset and what follows it: bytes, a wait and a second reset (R171). -/
theorem eventsReadTemp_isPulse (l : Latches) : IsPulse (eventsReadTemp l) := by
  have hconversion : driveAfter [.waitMs Config.tConv] true = true := rfl
  exact rst_isPulse.append (wbyte_isPulse skipRom).releases |>.append (wbyte_isPulse convert).releases
    |>.append hconversion |>.append rst_isPulse.releases |>.append (wbyte_isPulse skipRom).releases
    |>.append (wbyte_isPulse readScratchpad).releases |>.append rbyte_isPulse.releases
    |>.append rbyte_isPulse.releases

/-- A command leaves the bus alone, or its event list is a pulse (R142). -/
theorem eventList_nil_or_isPulse (i : Instr) (l : Latches) : eventList i l = [] ∨ IsPulse (eventList i l) := by
  cases i with
  | nop | compensate | altitude => exact .inl rfl
  | reset => exact .inr rst_isPulse
  | writeBit => exact .inr (wbit_isPulse _)
  | readBit => exact .inr rbit_isPulse
  | writeByte => exact .inr (wbyte_isPulse _)
  | readByte => exact .inr rbyte_isPulse
  | readTemp => exact .inr (eventsReadTemp_isPulse l)

/-- Settles O43: an empty list moves nothing, and a pulse does both things R142 says. -/
theorem commandsReleaseTheLine : Obligations.CommandsReleaseTheLine := by
  intro i l
  rcases eventList_nil_or_isPulse i l with hnil | hpulse
  · exact ⟨by rw [hnil, driveAfter], .inl hnil⟩
  · exact ⟨hpulse.releases, .inr hpulse.pulls⟩

end Sys2Proof.Machine
end

section
/-! The bus primitives RESET, WRITE_BIT and READ_BIT: acceptance and completion (R110, R114, R135 to R141). -/

namespace Sys2Proof.Machine

open Sys2Proof.Statement

/-- R110 for every command: idle, it is accepted with its event list for the operands latched now. -/
theorem exec_accepts {s : State} (i : Instr) (hidle : s.status.busy = false) :
    exec i s = .next (acceptedState i (eventList i (latchOperands i.opcode s)) s) := by
  rw [exec_eq_runCommand, runCommand_idle _ _ _ hidle]
  rfl

/-- R114 for every command: running, with every event performed, it completes. -/
theorem exec_completes {s : State} {i : Instr} (hruns : runs i s) (hend : atEnd s) :
    exec i s = .next (complete (doneOf i) s) := by
  obtain ⟨hbusy, hop⟩ := hruns
  rw [exec_eq_runCommand, runCommand_complete _ _ hbusy hop ((atEnd_iff s).1 hend)]

/-- The model's reset sequence is the printed one (R135). -/
theorem rst_eq_resetSequence : rst = resetSequence := rfl

/-- The model's read slot is the printed one (R139). -/
theorem rbit_eq_readSlot : rbit = readSlot := rfl

/-- The model's write slot is the printed one, for a 1 and for a 0 (R137). -/
theorem wbit_eq_writeSlot (b : Bit) : wbit b = writeSlot b := by cases b <;> rfl

/-- The operand of WRITE_BIT is TXDATA bit 0 at acceptance (R138). -/
theorem bitOperand_latchOperands (op : BitVec 4) (s : State) : bitOperand (latchOperands op s) = s.txdata[0] := rfl

/-- S[0] of a command that took one sample (R141). -/
theorem sampleAt_singleton {ss : List Bit} {b : Bit} (h : ss = [b]) : sampleAt ss 0 = b := by rw [h]; rfl

/-- R135, R136 at the end of RESET: PRESENT is the negated first sample. -/
theorem complete_reset (s : State) :
    complete (doneOf .reset) s
      = { s with status := { s.status with present := !sampleAt s.samples 0, busy := false } } := rfl

/-- R138 at the end of WRITE_BIT: only BUSY is written. -/
theorem complete_writeBit (s : State) : complete (doneOf .writeBit) s = idleState s := rfl

/-- A bit zero-extended is the number 0 or 1. -/
theorem ofBool_setWidth_eq (b : Bit) : (BitVec.ofBool b).setWidth 8 = if b then 1 else 0 := by cases b <;> rfl

/-- R140, R141 at the end of READ_BIT: RXDATA is the first sample as it is. -/
theorem complete_readBit (s : State) :
    complete (doneOf .readBit) s = { idleState s with rxdata := if sampleAt s.samples 0 then 1 else 0 } := by
  rw [← ofBool_setWidth_eq]
  rfl

/-- Settles O2: the list accepted is R135's, and the completion negates the one sample. -/
theorem resetReportsPresence : Obligations.ResetReportsPresence := by
  intro s
  refine ⟨fun hidle => ?_, fun b hruns hend hs => ?_⟩
  · rw [exec_accepts .reset hidle, eventList, eventsReset, rst_eq_resetSequence]
  · rw [exec_completes hruns hend, complete_reset, sampleAt_singleton hs]

/-- Settles O3: the list accepted is the write slot of the latched bit, and the completion writes nothing of its own. -/
theorem writeBitSendsBitZero : Obligations.WriteBitSendsBitZero := by
  intro s
  refine ⟨fun hidle => ?_, fun hruns hend => ?_⟩
  · rw [exec_accepts .writeBit hidle, eventList, eventsWriteBit, bitOperand_latchOperands, wbit_eq_writeSlot]
  · rw [exec_completes hruns hend, complete_writeBit]

/-- Settles O4: the list accepted is R139's, and the completion stores the one sample. -/
theorem readBitReturnsSample : Obligations.ReadBitReturnsSample := by
  intro s
  refine ⟨fun hidle => ?_, fun b hruns hend hs => ?_⟩
  · rw [exec_accepts .readBit hidle, eventList, eventsReadBit, rbit_eq_readSlot]
  · rw [exec_completes hruns hend, complete_readBit, sampleAt_singleton hs]

end Sys2Proof.Machine
end

section
/-! The byte framer: WRITE_BYTE and READ_BYTE, acceptance and completion (R160 to R163). -/

namespace Sys2Proof.Machine

open Sys2Proof.Statement

/-- The model's framing of a byte is its eight write slots, bit 0 first (R160). -/
theorem wbyte_eq_writeSlots (v : Byte) : wbyte v = writeSlots v := by
  simp only [wbyte_slots, wbit_eq_writeSlot]
  rfl

/-- The model's `rbyte` is eight read slots (R162). -/
theorem rbyte_eq_readSlots : rbyte = readSlots := by
  rw [rbyte_slots, rbit_eq_readSlot, readSlots]

/-- The operand of WRITE_BYTE is TXDATA at acceptance (R161). -/
theorem byteOperand_latchOperands (op : BitVec 4) (s : State) : byteOperand (latchOperands op s) = s.txdata := rfl

/-- The assembled byte `r` of R162 after its loop has taken the first `n` samples from `S[start]` on. -/
def byteAfterSamples (samples : List Bit) (start n : Nat) : Byte :=
  (List.range n).foldl (fun r i => r ||| ((BitVec.ofBool (sampleAt samples (start + i))).setWidth 8 <<< i)) 0

/-- The model's byte is `r` after all eight rounds. -/
theorem byteOfSamples_eq (ss : List Bit) (start : Nat) : byteOfSamples ss start = byteAfterSamples ss start 8 := rfl

/-- One round of the loop: `r <- r | (s_n << n)`. -/
theorem byteAfterSamples_succ (ss : List Bit) (start n : Nat) :
    byteAfterSamples ss start (n + 1)
      = byteAfterSamples ss start n ||| ((BitVec.ofBool (sampleAt ss (start + n))).setWidth 8 <<< n) := by
  simp [byteAfterSamples, List.range_succ]

/-- A bit moved to place `n` of a byte is its value times `2^n`. -/
theorem placedBit_toNat (b : Bit) {n : Nat} (hn : n < 8) :
    ((BitVec.ofBool b).setWidth 8 <<< n).toNat = 2 ^ n * b.toNat := by
  have hplace : 2 ^ n < 2 ^ 8 := Nat.pow_lt_pow_right (by omega) hn
  cases b
  · simp
  · simpa [Nat.shiftLeft_eq] using hplace

/-- The loop of R162 sums: after `n` rounds the byte lies below `2^n`, so the next bit is or-ed into an empty place and
adds its weight. -/
theorem byteAfterSamples_toNat (ss : List Bit) (start : Nat) {n : Nat} (hn : n ≤ 8) :
    (byteAfterSamples ss start n).toNat = ∑ i ∈ Finset.range n, 2 ^ i * (sampleAt ss (start + i)).toNat ∧
    (byteAfterSamples ss start n).toNat < 2 ^ n := by
  induction n with
  | zero => exact ⟨rfl, Nat.one_pos⟩
  | succ n ih =>
    obtain ⟨hsum, hlt⟩ := ih (by omega)
    have hround : (byteAfterSamples ss start (n + 1)).toNat
        = 2 ^ n * (sampleAt ss (start + n)).toNat + (byteAfterSamples ss start n).toNat := by
      rw [byteAfterSamples_succ, BitVec.toNat_or, placedBit_toNat _ (by omega), Nat.or_comm,
        Nat.two_pow_add_eq_or_of_lt hlt]
    have hbit : 2 ^ n * (sampleAt ss (start + n)).toNat ≤ 2 ^ n * 1 := Nat.mul_le_mul_left _ (Bool.toNat_le _)
    exact ⟨by rw [hround, hsum, Finset.sum_range_succ, Nat.add_comm], by omega⟩

/-- R162: the byte assembled from `S[start]` on is the sum of its eight samples by their weights. -/
theorem byteOfSamples_toNat (ss : List Bit) (start : Nat) :
    (byteOfSamples ss start).toNat
      = bitSum (sampleAt ss start) (sampleAt ss (start + 1)) (sampleAt ss (start + 2)) (sampleAt ss (start + 3))
        (sampleAt ss (start + 4)) (sampleAt ss (start + 5)) (sampleAt ss (start + 6)) (sampleAt ss (start + 7)) := by
  rw [byteOfSamples_eq, (byteAfterSamples_toNat ss start (Nat.le_refl 8)).1]
  simp [Finset.sum_range_succ, bitSum]

/-- The byte of eight samples that are all there are (R162, R163). -/
theorem byteOfSamples_eight (b0 b1 b2 b3 b4 b5 b6 b7 : Bit) :
    byteOfSamples [b0, b1, b2, b3, b4, b5, b6, b7] 0 = BitVec.ofNat 8 (bitSum b0 b1 b2 b3 b4 b5 b6 b7) := by
  calc byteOfSamples [b0, b1, b2, b3, b4, b5, b6, b7] 0
      = BitVec.ofNat 8 (byteOfSamples [b0, b1, b2, b3, b4, b5, b6, b7] 0).toNat := by simp
    _ = BitVec.ofNat 8 (bitSum b0 b1 b2 b3 b4 b5 b6 b7) := by rw [byteOfSamples_toNat]; rfl

/-- R161 at the end of WRITE_BYTE: only BUSY is written. -/
theorem complete_writeByte (s : State) : complete (doneOf .writeByte) s = idleState s := rfl

/-- R163 at the end of READ_BYTE: RXDATA is the assembled byte. -/
theorem complete_readByte (s : State) :
    complete (doneOf .readByte) s = { idleState s with rxdata := byteOfSamples s.samples 0 } := rfl

/-- Settles O6: the list accepted is eight read slots, and the completion stores the byte assembled from the samples. -/
theorem readByteAssemblesSamples : Obligations.ReadByteAssemblesSamples := by
  intro s
  refine ⟨fun hidle => ?_, fun b0 b1 b2 b3 b4 b5 b6 b7 hruns hend hs => ?_⟩
  · rw [exec_accepts .readByte hidle, eventList, eventsReadByte, rbyte_eq_readSlots]
  · rw [exec_completes hruns hend, complete_readByte, hs, byteOfSamples_eight]

/-- Settles O5: the list accepted is the eight write slots of the latched byte, and the completion writes nothing of its
own. -/
theorem writeByteSendsEightSlots : Obligations.WriteByteSendsEightSlots := by
  intro s
  refine ⟨fun hidle => ?_, fun hruns hend => ?_⟩
  · rw [exec_accepts .writeByte hidle, eventList, eventsWriteByte, byteOperand_latchOperands, wbyte_eq_writeSlots]
  · rw [exec_completes hruns hend, complete_writeByte]

end Sys2Proof.Machine
end

section
/-! The temperature transaction READ_TEMP: its printed event list, the raw value, the scaling and the 16-bit view
(R171 to R176). -/

namespace Sys2Proof.Machine

open Sys2Proof.Statement

/-- The model's transaction is the printed one: the same steps, byte by byte (R171). -/
theorem eventsReadTemp_eq (l : Latches) : eventsReadTemp l = temperatureSequence := by
  simp only [eventsReadTemp, temperatureSequence, rst_eq_resetSequence, wbyte_eq_writeSlots, rbyte_eq_readSlots]
  rfl

/-- The samples of two lists. -/
theorem sampleCount_append (a b : List BusOp) : sampleCount (a ++ b) = sampleCount a + sampleCount b :=
  List.countP_append

/-- A write slot is three events, for a 0 and for a 1 (R137). -/
theorem writeSlot_length (b : Bit) : (writeSlot b).length = 3 := by cases b <;> rfl

/-- A write slot takes no sample (R137). -/
theorem sampleCount_writeSlot (b : Bit) : sampleCount (writeSlot b) = 0 := by cases b <;> rfl

/-- A byte's framing is twenty-four events, whatever the byte (R160). -/
theorem writeSlots_length (v : Byte) : (writeSlots v).length = 24 := by
  simp [writeSlots, writeSlot_length]

/-- A byte's framing takes no sample (R160). -/
theorem sampleCount_writeSlots (v : Byte) : sampleCount (writeSlots v) = 0 := by
  simp [writeSlots, sampleCount_append, sampleCount_writeSlot]

/-- Steps 1 to 3 of R171: the reset and the two bytes that start the conversion. -/
def conversionStart : List BusOp := resetSequence ++ writeSlots 0xCC ++ writeSlots 0x44

/-- What follows the second reset of R171: the two bytes that ask for the scratchpad, and its first two bytes. -/
def scratchpadRead : List BusOp := writeSlots 0xCC ++ writeSlots 0xBE ++ readSlots ++ readSlots

/-- The transaction cut at the conversion wait and after the second reset. -/
theorem temperatureSequence_eq :
    temperatureSequence = (conversionStart ++ [.waitMs 750]) ++ (resetSequence ++ scratchpadRead) := by
  simp [temperatureSequence, conversionStart, scratchpadRead]

/-- The reset sequence is six events (R135). -/
theorem resetSequence_length : resetSequence.length = 6 := rfl

/-- The conversion wait comes after 54 events (R171). -/
theorem conversionStart_length : conversionStart.length = 54 := by
  simp [conversionStart, writeSlots_length, resetSequence_length]

/-- Two bytes written and two read: 24 + 24 + 40 + 40 events (R171). -/
theorem scratchpadRead_length : scratchpadRead.length = 128 := by
  simp [scratchpadRead, writeSlots_length, readSlots, readSlot]

/-- One sample per reset, none per byte written, eight per byte read. -/
theorem sampleCount_temperatureSequence : sampleCount temperatureSequence = 18 := by
  have hreset : sampleCount resetSequence = 1 := rfl
  have hread : sampleCount readSlots = 8 := rfl
  have hwait : sampleCount [.waitMs 750] = 0 := rfl
  simp only [temperatureSequence, sampleCount_append, sampleCount_writeSlots, hreset, hread, hwait]

/-- Settles O44: the printed list cut at the wait, which stands right after 54 events. -/
theorem temperatureTransactionShape : Obligations.TemperatureTransactionShape := by
  intro l
  have hlist : eventList .readTemp l = temperatureSequence := eventsReadTemp_eq l
  rw [hlist]
  refine ⟨rfl, ?_, sampleCount_temperatureSequence, ?_, ?_, ?_⟩
  · simp [temperatureSequence_eq, conversionStart_length, resetSequence_length, scratchpadRead_length]
  · rw [temperatureSequence_eq, List.append_assoc, List.getElem?_append_right conversionStart_length.le,
      conversionStart_length]
    rfl
  · rw [temperatureSequence_eq, conversionStart]
    simp only [List.append_assoc]
    exact List.take_left' resetSequence_length
  · rw [temperatureSequence_eq, List.drop_left' (by simp [conversionStart_length])]
    exact List.take_left' resetSequence_length

/-- Truncation toward zero on the nonnegative side: the quotient is the last multiple not above. -/
theorem tdiv_sixteen_of_nonneg {a : Int} (h : 0 ≤ a) : a.tdiv 16 * 16 ≤ a ∧ a < a.tdiv 16 * 16 + 16 := by
  have hsplit := Int.tmod_add_mul_tdiv a 16
  have hlow := Int.tmod_nonneg 16 h
  have hhigh := Int.tmod_lt_of_pos a (b := 16) (by decide)
  omega

/-- Truncation toward zero on the negative side: the mirror image. -/
theorem tdiv_sixteen_of_neg {a : Int} (h : a < 0) : a ≤ a.tdiv 16 * 16 ∧ a.tdiv 16 * 16 < a + 16 := by
  have hmirror := tdiv_sixteen_of_nonneg (a := -a) (by omega)
  rw [Int.neg_tdiv] at hmirror
  omega

/-- R174 for a raw value that is not negative: q is the last whole number not above raw * 100 / 16. -/
theorem scaledTemperature_of_nonneg {raw : BitVec 16} (h : 0 ≤ raw.toInt) :
    scaledTemperature raw * 16 ≤ raw.toInt * 100 ∧ raw.toInt * 100 < scaledTemperature raw * 16 + 16 :=
  tdiv_sixteen_of_nonneg (by omega)

/-- R174 for a negative raw value: q is the first whole number not below raw * 100 / 16. -/
theorem scaledTemperature_of_neg {raw : BitVec 16} (h : raw.toInt < 0) :
    raw.toInt * 100 ≤ scaledTemperature raw * 16 ∧ scaledTemperature raw * 16 < raw.toInt * 100 + 16 :=
  tdiv_sixteen_of_neg (by omega)

/-- A raw value is a signed 16-bit number (R173). -/
theorem raw_range (raw : BitVec 16) : -32768 ≤ raw.toInt ∧ raw.toInt ≤ 32767 :=
  ⟨raw.le_toInt, raw.toInt_le⟩

/-- The range of q (R174). -/
theorem scaledTemperature_range (raw : BitVec 16) :
    -204800 ≤ scaledTemperature raw ∧ scaledTemperature raw ≤ 204793 := by
  obtain ⟨hlow, hhigh⟩ := raw_range raw
  rcases lt_or_ge raw.toInt 0 with hneg | hnonneg
  · have hq := scaledTemperature_of_neg hneg
    omega
  · have hq := scaledTemperature_of_nonneg hnonneg
    omega

/-- TEMP holds q whole: q fits in 32 bits (R174, R175). -/
theorem toInt_ofInt_scaledTemperature (raw : BitVec 16) :
    (BitVec.ofInt 32 (scaledTemperature raw)).toInt = scaledTemperature raw := by
  obtain ⟨hlow, hhigh⟩ := scaledTemperature_range raw
  rw [BitVec.toInt_ofInt]
  exact Int.bmod_eq_of_le (by omega) (by omega)

/-- Settles O37: each sign has its own rounding, and the range follows from the two. -/
theorem temperatureScaleTruncates : Obligations.TemperatureScaleTruncates := by
  intro raw
  obtain ⟨hlow, hhigh⟩ := raw_range raw
  obtain ⟨hqlow, hqhigh⟩ := scaledTemperature_range raw
  exact ⟨by omega, by omega, hqlow, hqhigh, scaledTemperature_of_nonneg, scaledTemperature_of_neg,
    toInt_ofInt_scaledTemperature raw⟩

/-- q fits in 16 bits exactly for the raw values of R175. -/
theorem scaledTemperature_fits_iff (raw : BitVec 16) :
    (-2 ^ 15 ≤ scaledTemperature raw ∧ scaledTemperature raw < 2 ^ 15) ↔ -5243 ≤ raw.toInt ∧ raw.toInt ≤ 5242 := by
  rcases lt_or_ge raw.toInt 0 with hneg | hnonneg
  · have hq := scaledTemperature_of_neg hneg
    omega
  · have hq := scaledTemperature_of_nonneg hnonneg
    omega

/-- A number is its own 16-bit wrap exactly when it is a signed 16-bit number. -/
theorem bmod_sixteen_eq_self_iff (q : Int) : q.bmod (2 ^ 16) = q ↔ -2 ^ 15 ≤ q ∧ q < 2 ^ 15 := by
  rw [Int.bmod_eq_iff (by decide)]
  simp

/-- The 16-bit view is the value of TEMP wrapped (R175). -/
theorem temperature16_eq (s : State) : temperature16 s = s.temp.toInt.bmod (2 ^ 16) := by
  rw [temperature16, BitVec.toInt_setWidth, BitVec.toInt_eq_toNat_bmod, Int.bmod_bmod_of_dvd (by decide)]

/-- R176 at the end of READ_TEMP: SCRATCH, TEMP and the two presence flags. -/
theorem complete_readTemp (s : State) :
    complete (doneOf .readTemp) s
      = { s with
          scratch := rawScratchpad s.samples
          temp := BitVec.ofInt 32 (scaledTemperature (rawScratchpad s.samples))
          status :=
            { s.status with presA := !sampleAt s.samples 0, presB := !sampleAt s.samples 1, busy := false } } := rfl

/-- Settles O38: TEMP holds q whole, so its view is q wrapped, and that is q where q fits. -/
theorem sixteenBitTemperatureView : Obligations.SixteenBitTemperatureView := by
  intro s hruns hend
  refine ⟨_, exec_completes hruns hend, ?_⟩
  generalize ht : complete (doneOf .readTemp) s = t
  have htemp : t.temp = BitVec.ofInt 32 (scaledTemperature t.scratch) := by rw [← ht, complete_readTemp]
  have hview : temperature16 t = (scaledTemperature t.scratch).bmod (2 ^ 16) := by
    rw [temperature16_eq, htemp, toInt_ofInt_scaledTemperature]
  refine ⟨htemp, hview, ?_⟩
  rw [hview, bmod_sixteen_eq_self_iff, scaledTemperature_fits_iff]

/-- The raw pattern is the number `b1 + 256 * b2` (R173). -/
theorem rawScratchpad_eq_ofNat (ss : List Bit) :
    rawScratchpad ss = BitVec.ofNat 16 ((byteOfSamples ss 2).toNat + 256 * (byteOfSamples ss 10).toNat) := by
  rw [Nat.add_comm, ← bytes_append_toNat, BitVec.ofNat_toNat, BitVec.setWidth_eq, rawScratchpad]

/-- The eighteen samples of a READ_TEMP, as the raw number they make: b1 from S[2..9] and b2 from S[10..17], the low
byte first (R173). -/
theorem rawScratchpad_eighteen (pa pb a0 a1 a2 a3 a4 a5 a6 a7 b0 b1 b2 b3 b4 b5 b6 b7 : Bit) :
    rawScratchpad [pa, pb, a0, a1, a2, a3, a4, a5, a6, a7, b0, b1, b2, b3, b4, b5, b6, b7]
      = BitVec.ofNat 16 (bitSum a0 a1 a2 a3 a4 a5 a6 a7 + 256 * bitSum b0 b1 b2 b3 b4 b5 b6 b7) := by
  rw [rawScratchpad_eq_ofNat, byteOfSamples_toNat, byteOfSamples_toNat]
  rfl

/-- The scaled value of a 16-bit pattern given as a number (R173, R174). -/
theorem scaledTemperature_ofNat (n : Nat) :
    scaledTemperature (BitVec.ofNat 16 n) = (sext16 n * 100).tdiv 16 := by
  have hsigned : (BitVec.ofNat 16 n).toInt = sext16 n := BitVec.toInt_ofNat' n
  rw [scaledTemperature, hsigned]

/-- Settles O7: the list accepted is R171's, and the completion writes what the eighteen samples make. -/
theorem readTempScalesRawValue : Obligations.ReadTempScalesRawValue := by
  intro s
  refine ⟨fun hidle => ?_, fun pa pb a0 a1 a2 a3 a4 a5 a6 a7 b0 b1 b2 b3 b4 b5 b6 b7 hruns hend hs => ?_⟩
  · rw [exec_accepts .readTemp hidle, eventList, eventsReadTemp_eq]
  · rw [exec_completes hruns hend, complete_readTemp, hs, rawScratchpad_eighteen, scaledTemperature_ofNat]
    rfl

end Sys2Proof.Machine
end

section
/-! The compensator (R190 to R200): its operations as wrapped whole-number operations, its printed lines, its guard, and the
command that runs it. -/

namespace Sys2Proof.Machine

open Sys2Proof.Statement

/-! ### Coefficients -/

/-- A calibration field's pattern is the field (R66). -/
theorem calField_toNat_eq_field (cal : Vector Byte 18) (i : Fin 9) : (calField cal i).toNat = field cal i := by
  rw [calField_toNat, field, Nat.add_comm]

/-- Zero-extended, a field keeps its unsigned value (R191). -/
theorem setWidth_calField_toInt (cal : Vector Byte 18) (i : Fin 9) :
    ((calField cal i).setWidth 64).toInt = field cal i := by
  have hlt := (calField cal i).isLt
  have hkeep : ((calField cal i).setWidth 64).toNat = (calField cal i).toNat := BitVec.toNat_setWidth_of_le (by omega)
  rw [BitVec.toInt_eq_toNat_of_lt (by omega), hkeep, calField_toNat_eq_field]

/-- Sign-extended, a field has its two's-complement value (R191). -/
theorem signExtend_calField_toInt_eq_sext16 (cal : Vector Byte 18) (i : Fin 9) :
    ((calField cal i).signExtend 64).toInt = sext16 (field cal i) := by
  rw [signExtend_calField_toInt, BitVec.toInt_eq_toNat_bmod, calField_toNat_eq_field]
  rfl

/-- Settles O33: the first field is zero-extended, the other eight are sign-extended. -/
theorem coefficientsUnpack : Obligations.CoefficientsUnpack := by
  intro cal
  have hsigned := signExtend_calField_toInt_eq_sext16 cal
  exact ⟨setWidth_calField_toInt cal 0, hsigned 1, hsigned 2, hsigned 3, hsigned 4, hsigned 5, hsigned 6, hsigned 7,
    hsigned 8⟩

/-! ### The operations of R190 on whole numbers -/

theorem add64_toInt (a b : DWord) : (add64 a b).toInt = wrap64 (a.toInt + b.toInt) := BitVec.toInt_add a b

theorem sub64_toInt (a b : DWord) : (sub64 a b).toInt = wrap64 (a.toInt - b.toInt) := BitVec.toInt_sub

theorem mul64_toInt (a b : DWord) : (mul64 a b).toInt = wrap64 (a.toInt * b.toInt) := BitVec.toInt_mul a b

/-- The model shifts the pattern, R190 multiplies the signed value: the two are congruent modulo 2^64. -/
theorem shl64_toInt (a : DWord) (k : Nat) : (shl64 a k).toInt = wrap64 (a.toInt * 2 ^ k) := by
  rw [shl64, BitVec.toInt_shiftLeft, wrap64, BitVec.toInt_eq_toNat_bmod, Int.bmod_mul_bmod, Nat.shiftLeft_eq]
  push_cast
  rfl

theorem sar64_toInt (a : DWord) (k : Nat) : (sar64 a k).toInt = floorShift a.toInt k := by
  have hpos : (0 : Int) ≤ 2 ^ k := by positivity
  rw [sar64, BitVec.toInt_sshiftRight, Int.shiftRight_eq_div_pow, floorShift, Int.fdiv_eq_ediv_of_nonneg _ hpos]
  push_cast
  rfl

theorem tdiv64_toInt (a b : DWord) : (tdiv64 a b).toInt = wrap64 (a.toInt.tdiv b.toInt) := BitVec.toInt_sdiv a b

/-- Settles O34: one lemma per operation. -/
theorem fixedPointOperationsWrap : Obligations.FixedPointOperationsWrap := fun a b k =>
  ⟨add64_toInt a b, sub64_toInt a b, mul64_toInt a b, shl64_toInt a k, sar64_toInt a k, fun _ => tdiv64_toInt a b⟩

/-- The low 32 bits as a number (R196): 2^32 divides 2^64, so the wrap to s64 does not show. -/
theorem low32_toNat (p : DWord) : ((low32 p).toNat : Int) = p.toInt % 2 ^ 32 := by
  have hlow : (low32 p).toNat = p.toNat % 2 ^ 32 := BitVec.toNat_setWidth 32 p
  rw [BitVec.toInt_eq_toNat_cond]
  split <;> omega

/-! ### The printed lines of R193 -/

/-- Line 1. -/
theorem fineOffset_toInt (tfine : Word) : (fineOffset tfine).toInt = wrap64 (tfine.toInt - 128000) := by
  rw [fineOffset, sub64_toInt, sext32_toInt]
  rfl

/-- Lines 2 to 4. -/
theorem numeratorOffset_toInt (v1 : DWord) (c : Coefficients) :
    (numeratorOffset v1 c).toInt = secondConvInt v1.toInt c.p4.toInt c.p5.toInt c.p6.toInt := by
  simp only [numeratorOffset, secondConvInt, add64_toInt, mul64_toInt, shl64_toInt]

/-- Lines 5 and 6. -/
theorem denominator_toInt (v1 : DWord) (c : Coefficients) :
    (denominator v1 c).toInt = denominatorInt v1.toInt c.p1.toInt c.p2.toInt c.p3.toInt := by
  have hone : (shl64 1 47).toInt = 2 ^ 47 := by decide
  simp only [denominator, denominatorInt, add64_toInt, mul64_toInt, shl64_toInt _ 12, sar64_toInt, hone]

/-- Lines 8 and 9. -/
theorem quotient_toInt (praw : Word) (v2 d : DWord) :
    (quotient praw v2 d).toInt = quotientInt praw.toInt v2.toInt d.toInt := by
  have htop : (1048576 : DWord).toInt = 1048576 := by decide
  have hscale : (3125 : DWord).toInt = 3125 := by decide
  simp only [quotient, quotientInt, sub64_toInt, mul64_toInt, shl64_toInt, tdiv64_toInt, sext32_toInt, htop, hscale]

/-- Lines 10 to 12. -/
theorem correction_toInt (p : DWord) (c : Coefficients) :
    (correction p c).toInt = correctionInt p.toInt c.p7.toInt c.p8.toInt c.p9.toInt := by
  simp only [correction, correctionInt, add64_toInt, mul64_toInt, shl64_toInt, sar64_toInt]

/-- COMP where the denominator is 0 (R194). -/
theorem comp_of_denominator_eq_zero {praw tfine : Word} {cal : Vector Byte 18}
    (hd : denominator (fineOffset tfine) (unpack cal) = 0) : comp praw tfine cal = (0, true) := if_pos hd

/-- COMP elsewhere: the low 32 bits of the last sum (R193, R196). -/
theorem comp_of_denominator_ne_zero {praw tfine : Word} {cal : Vector Byte 18}
    (hd : denominator (fineOffset tfine) (unpack cal) ≠ 0) :
    comp praw tfine cal
      = (low32 (correction (quotient praw (numeratorOffset (fineOffset tfine) (unpack cal))
          (denominator (fineOffset tfine) (unpack cal))) (unpack cal)), false) := if_neg hd

/-- The guard is exactly the zero denominator (R194). -/
theorem comp_guard_iff (praw tfine : Word) (cal : Vector Byte 18) :
    (comp praw tfine cal).2 = true ↔ denominator (fineOffset tfine) (unpack cal) = 0 := by
  by_cases hd : denominator (fineOffset tfine) (unpack cal) = 0
  · simp [comp_of_denominator_eq_zero hd, hd]
  · exact iff_of_false (by simp [comp_of_denominator_ne_zero hd]) hd

/-- A pattern is zero exactly when its signed value is. -/
theorem eq_zero_iff_toInt (d : DWord) : d = 0 ↔ d.toInt = 0 := BitVec.toInt_inj.symm

/-- COMP is the printed formula on the signed values of its operands and coefficients (R193). -/
theorem comp_eq_compInt (praw tfine : Word) (cal : Vector Byte 18) :
    (((comp praw tfine cal).1.toNat : Int), (comp praw tfine cal).2)
      = compInt praw.toInt tfine.toInt (unpack cal).p1.toInt (unpack cal).p2.toInt (unpack cal).p3.toInt
          (unpack cal).p4.toInt (unpack cal).p5.toInt (unpack cal).p6.toInt (unpack cal).p7.toInt
          (unpack cal).p8.toInt (unpack cal).p9.toInt := by
  rw [compInt, ← fineOffset_toInt, ← denominator_toInt, ← numeratorOffset_toInt, ← quotient_toInt, ← correction_toInt]
  by_cases hd : denominator (fineOffset tfine) (unpack cal) = 0
  · rw [if_pos ((eq_zero_iff_toInt _).1 hd), comp_of_denominator_eq_zero hd]
    rfl
  · rw [if_neg (mt (eq_zero_iff_toInt _).2 hd), comp_of_denominator_ne_zero hd, low32_toNat]

/-- Settles O35: the formula on the unpacked coefficients, whose signed values are the fields of R192. -/
theorem compensatorIsTheFormula : Obligations.CompensatorIsTheFormula := by
  intro praw tfine cal
  obtain ⟨h1, h2, h3, h4, h5, h6, h7, h8, h9⟩ := coefficientsUnpack cal
  rw [comp_eq_compInt, h1, h2, h3, h4, h5, h6, h7, h8, h9]

/-! ### The guard (R194) -/

/-- The product of line 6, before its shift. -/
def guardProduct (v1 : DWord) (c : Coefficients) : DWord :=
  mul64 (add64 0x0000800000000000#64
    (add64 (sar64 (mul64 (mul64 v1 v1) c.p3) 8) (shl64 (mul64 v1 c.p2) 12))) c.p1

/-- The denominator is that product shifted right by 33. -/
theorem denominator_eq_sar64_guardProduct (v1 : DWord) (c : Coefficients) :
    denominator v1 c = sar64 (guardProduct v1 c) 33 := rfl

/-- With digP1 = 0 the product is 0. -/
theorem guardProduct_of_p1_eq_zero (v1 : DWord) {c : Coefficients} (h : c.p1 = 0) : guardProduct v1 c = 0 := by
  rw [guardProduct, h, mul64]
  exact BitVec.mul_zero

/-- The shift rounds down, so it gives 0 exactly on the k bits from 0 up. -/
theorem sar64_eq_zero_iff (a : DWord) (k : Nat) : sar64 a k = 0 ↔ 0 ≤ a.toInt ∧ a.toInt < 2 ^ k := by
  have hpos : (0 : Int) < 2 ^ k := by positivity
  rw [eq_zero_iff_toInt, sar64_toInt, floorShift, Int.fdiv_eq_ediv_of_nonneg _ hpos.le,
    Int.ediv_eq_iff_of_pos hpos, zero_mul, zero_add]

/-- Settles O36: the guard is a zero denominator, the denominator is the shifted product, and digP1 = 0 makes it 0. -/
theorem guardFiresExactly : Obligations.GuardFiresExactly := by
  rintro praw tfine cal _ product rfl hproduct
  obtain rfl : product = guardProduct (fineOffset tfine) (unpack cal) := hproduct
  have hguard : (comp praw tfine cal).2 = true ↔ sar64 (guardProduct (fineOffset tfine) (unpack cal)) 33 = 0 :=
    comp_guard_iff praw tfine cal
  refine ⟨hguard.trans (sar64_eq_zero_iff _ 33), comp_sentinel, fun hfield => hguard.2 ?_⟩
  have hp1 : (unpack cal).p1 = 0 := by
    rw [eq_zero_iff_toInt, (coefficientsUnpack cal).1, hfield]
    rfl
  rw [guardProduct_of_p1_eq_zero _ hp1]
  decide

/-! ### COMPENSATE (R197, R200) -/

/-- R197 at the end of COMPENSATE: PRESS and DIVZ from COMP on the latched operands. -/
theorem complete_compensate (s : State) :
    complete (doneOf .compensate) s
      = { s with
          press := (comp s.latch.praw s.latch.tfine s.latch.cal).1
          status :=
            { s.status with divz := (comp s.latch.praw s.latch.tfine s.latch.cal).2, busy := false } } := rfl

/-- Settles O59: acceptance latches the operands of `s` and leaves no event to perform, so the next action is the
completion on those operands. -/
theorem compensateIsPure : Obligations.CompensateIsPure := by
  intro s t hidle haccept
  rw [exec_accepts .compensate hidle] at haccept
  obtain rfl := Host.Outcome.next.inj haccept
  rw [exec_completes ⟨rfl, rfl⟩ (Nat.le_refl _), complete_compensate]
  rfl

end Sys2Proof.Machine
end

section
/-! The altitude's conversion to u32 (R234): its two comparisons and its truncation, by the exact value. -/

namespace Sys2Proof.Machine

/-- With the sign bit set the value is the magnitude negated. -/
theorem f64Value_of_negative {a : DWord} (h : f64Sign a = true) : f64Value a = -(f64Units a : Int) := if_pos h

/-- With the sign bit clear the value is the magnitude. -/
theorem f64Value_of_nonnegative {a : DWord} (h : f64Sign a = false) : f64Value a = f64Units a := by
  simp [f64Value, h]

/-- The magnitude is the value without its sign. -/
theorem f64Units_eq_natAbs (a : DWord) : f64Units a = (f64Value a).natAbs := by
  cases hs : f64Sign a
  case false => rw [f64Value_of_nonnegative hs, Int.natAbs_natCast]
  case true => rw [f64Value_of_negative hs, Int.natAbs_neg, Int.natAbs_natCast]

/-- The model's comparison with -1 is that of the exact value: a clear sign bit is never below 0. -/
theorem f64AtMostMinusOne_iff (a : DWord) : f64AtMostMinusOne a = true ↔ f64Value a ≤ -(unitsPerOne : Int) := by
  have hpos := unitsPerOne_pos
  cases hs : f64Sign a
  case false =>
    rw [f64Value_of_nonnegative hs]
    exact iff_of_false (by simp [f64AtMostMinusOne, hs]) (by omega)
  case true =>
    rw [f64Value_of_negative hs]
    simp only [f64AtMostMinusOne, hs, Bool.true_and, decide_eq_true_iff]
    omega

/-- The model's comparison with 2^32 is that of the exact value: a set sign bit is never above 0. -/
theorem f64AtLeastTwo32_iff (a : DWord) : f64AtLeastTwo32 a = true ↔ 2 ^ 32 * (unitsPerOne : Int) ≤ f64Value a := by
  have hpos := unitsPerOne_pos
  cases hs : f64Sign a
  case false =>
    rw [f64Value_of_nonnegative hs]
    simp only [f64AtLeastTwo32, hs, Bool.not_false, Bool.true_and, decide_eq_true_iff]
    omega
  case true =>
    rw [f64Value_of_negative hs]
    exact iff_of_false (by simp [f64AtLeastTwo32, hs]) (by omega)

/-- Above -1 the truncated magnitude is the truncated value: a value in (-1, 0) has magnitude below 1, so both are 0. -/
theorem f64TruncAbs_eq_tdiv {a : DWord} (h : -(unitsPerOne : Int) < f64Value a) :
    (f64TruncAbs a : Int) = (f64Value a).tdiv unitsPerOne := by
  cases hs : f64Sign a
  case false => rw [f64Value_of_nonnegative hs, f64TruncAbs, Int.ofNat_tdiv]
  case true =>
    rw [f64Value_of_negative hs] at h ⊢
    have hzero : f64TruncAbs a = 0 := Nat.div_eq_of_lt (by omega)
    rw [Int.neg_tdiv, ← Int.ofNat_tdiv, ← f64TruncAbs, hzero]
    rfl

/-- Between -1 and 2^32 the truncated magnitude fits u32. -/
theorem f64TruncAbs_lt {a : DWord} (hlo : -(unitsPerOne : Int) < f64Value a)
    (hhi : f64Value a < 2 ^ 32 * (unitsPerOne : Int)) : f64TruncAbs a < 2 ^ 32 := by
  have hunits : f64Units a < unitsPerOne * 2 ^ 32 := by
    rw [f64Units_eq_natAbs]
    omega
  exact Nat.div_lt_of_lt_mul hunits

/-- A NaN does not convert (R234). -/
theorem convertAltitude_of_nan {a : DWord} (h : f64IsNaN a = true) : convertAltitude a = (Config.altOor a, true) :=
  if_pos (by simp [h])

/-- A value at most -1 or at least 2^32 does not convert (R234). -/
theorem convertAltitude_of_out_of_range {a : DWord}
    (h : f64Value a ≤ -(unitsPerOne : Int) ∨ 2 ^ 32 * (unitsPerOne : Int) ≤ f64Value a) :
    convertAltitude a = (Config.altOor a, true) := by
  rw [← f64AtMostMinusOne_iff, ← f64AtLeastTwo32_iff] at h
  exact if_pos (by simp [or_assoc, h])

/-- A value strictly between -1 and 2^32 converts to its truncated magnitude (R234). -/
theorem convertAltitude_of_in_range {a : DWord} (hnan : f64IsNaN a = false) (hlo : -(unitsPerOne : Int) < f64Value a)
    (hhi : f64Value a < 2 ^ 32 * (unitsPerOne : Int)) :
    convertAltitude a = (BitVec.ofNat 32 (f64TruncAbs a), false) := by
  have hbelow : ¬f64AtMostMinusOne a = true := mt (f64AtMostMinusOne_iff a).1 hlo.not_ge
  have habove : ¬f64AtLeastTwo32 a = true := mt (f64AtLeastTwo32_iff a).1 hhi.not_ge
  exact if_neg (by simp [hnan, hbelow, habove])

/-- Settles O41: the comparisons are those of the exact value, and in range the truncated magnitude fits u32. -/
theorem altitudeConversionTruncates : Obligations.AltitudeConversionTruncates := by
  intro a
  refine ⟨convertAltitude_of_nan, fun hnan => ⟨convertAltitude_of_out_of_range, fun hlo hhi => ?_⟩⟩
  rw [convertAltitude_of_in_range hnan hlo hhi, BitVec.toNat_ofNat, Nat.mod_eq_of_lt (f64TruncAbs_lt hlo hhi)]
  exact ⟨rfl, f64TruncAbs_eq_tdiv hlo⟩

end Sys2Proof.Machine
end

section
/-! The reset input: the whole next state, and what the trace gains (R280, R281). -/

namespace Sys2Proof.Machine

/-- A step on the reset input: every field of the engine as at reset, the surroundings and the trace going on. -/
theorem step_reset {s : State} {rest : List Input} (hin : s.inputs = .reset :: rest) :
    step s = .next { State.reset with
      inputs := rest, trace := s.trace ++ resetEvents s, device := s.device, readLog := s.readLog } := by
  rw [step_cons hin]
  rfl

/-- Settles O25: one next state for every reset, and in each case of R281 the events its trace gains. -/
theorem resetInputClearsEngine : Obligations.ResetInputClearsEngine := by
  intro s rest hin
  have hevents := resetEvents_cases s
  rw [step_reset hin]
  refine ⟨fun hidle => ?idle, fun hbusy hlow => ?low, fun hbusy hreleased => ?released⟩
  case idle =>
    have hnone : resetEvents s = [] := by simpa [hidle] using hevents
    rw [hnone, List.append_nil]
  case low =>
    have habortRelease : resetEvents s = [.abort, .drive true] := by simpa [hbusy, hlow] using hevents
    rw [habortRelease]
  case released =>
    have habort : resetEvents s = [.abort] := by simpa [hbusy, hreleased] using hevents
    rw [habort]

end Sys2Proof.Machine
end

section
/-! The total nominal wait of each command (R291): the printed sequences summed slot by slot, each sum closed by the
constraint of R133 that keeps its last phase from being cut off at 0. -/

namespace Sys2Proof.Machine

open Sys2Proof.Statement

/-! ### Waits of the printed sequences -/

/-- The microseconds of two lists add up. -/
theorem waitTotalUs_append (a b : List BusOp) : waitTotalUs (a ++ b) = waitTotalUs a + waitTotalUs b := by
  induction a with
  | nil => simp [waitTotalUs]
  | cons e a ih => cases e <;> simp [waitTotalUs, ih, Nat.add_assoc]

/-- The milliseconds of two lists add up. -/
theorem waitTotalMs_append (a b : List BusOp) : waitTotalMs (a ++ b) = waitTotalMs a + waitTotalMs b := by
  induction a with
  | nil => simp [waitTotalMs]
  | cons e a ih => cases e <;> simp [waitTotalMs, ih, Nat.add_assoc]

/-- The presence sample falls inside the reset, and the read sample inside the read slot (R133). -/
theorem sampleOffsets_fit :
    par.tRstl + par.tRstw + par.tPds < par.tRst ∧ par.tRl + par.tRs < par.tRslot := by
  have hadmitted := Config.timing.admitted
  simp only [Timing.admitted, Bool.and_eq_true, decide_eq_true_eq] at hadmitted
  obtain ⟨⟨⟨⟨⟨⟨-, hreset⟩, -⟩, -⟩, -⟩, hread⟩, -⟩ := hadmitted
  exact ⟨hreset, hread⟩

/-- The three phases of a reset fill `T_RST`. -/
theorem waitTotalUs_resetSequence : waitTotalUs resetSequence = par.tRst := by
  have hfit := sampleOffsets_fit.1
  simp only [resetSequence, waitTotalUs]
  omega

/-- The two phases of a read slot fill what its hold leaves of `T_RSLOT`. -/
theorem waitTotalUs_readSlot : waitTotalUs readSlot = par.tRslot - par.tRl := by
  have hfit := sampleOffsets_fit.2
  simp only [readSlot, waitTotalUs]
  omega

/-- A write slot waits the one phase of its bit. -/
theorem waitTotalUs_writeSlot (b : Bit) :
    waitTotalUs (writeSlot b) = b.toNat * (60 - par.tW1l) + (!b).toNat * par.tW0l := by
  cases b <;> simp [writeSlot, waitTotalUs]

/-- Eight read slots. -/
theorem waitTotalUs_readSlots : waitTotalUs readSlots = 8 * (par.tRslot - par.tRl) := by
  simp only [readSlots, waitTotalUs_append, waitTotalUs_readSlot]
  ring

/-- The bits of a byte that are not 1 are its 0 bits. -/
theorem eight_sub_ones (v : Byte) :
    8 - ones v = (!v[0]).toNat + (!v[1]).toNat + (!v[2]).toNat + (!v[3]).toNat + (!v[4]).toNat + (!v[5]).toNat
      + (!v[6]).toNat + (!v[7]).toNat := by
  have hbit : ∀ b : Bit, b.toNat + (!b).toNat = 1 := by decide
  have h0 := hbit v[0]
  have h1 := hbit v[1]
  have h2 := hbit v[2]
  have h3 := hbit v[3]
  have h4 := hbit v[4]
  have h5 := hbit v[5]
  have h6 := hbit v[6]
  have h7 := hbit v[7]
  simp only [ones, bitSum, Bool.toNat_false]
  omega

/-- A byte's framing waits one `T_SLOT - T_W1L` for each 1 bit and one `T_W0L` for each 0 bit. -/
theorem waitTotalUs_writeSlots (v : Byte) :
    waitTotalUs (writeSlots v) = ones v * (60 - par.tW1l) + (8 - ones v) * par.tW0l := by
  rw [eight_sub_ones]
  simp only [writeSlots, waitTotalUs_append, waitTotalUs_writeSlot, ones, bitSum, Bool.toNat_false]
  ring

/-- No write slot waits milliseconds. -/
theorem waitTotalMs_writeSlot (b : Bit) : waitTotalMs (writeSlot b) = 0 := by cases b <;> rfl

/-- No byte's framing waits milliseconds. -/
theorem waitTotalMs_writeSlots (v : Byte) : waitTotalMs (writeSlots v) = 0 := by
  simp only [writeSlots, waitTotalMs_append, waitTotalMs_writeSlot]

/-! ### READ_TEMP -/

/-- The transaction writes 16 bits of either value (four 1 bits in 0xCC, twice, two in 0x44 and six in 0xBE), between two
resets and sixteen read slots. -/
theorem waitTotalUs_temperatureSequence :
    waitTotalUs temperatureSequence
      = 2 * par.tRst + 16 * (60 - par.tW1l) + 16 * par.tW0l + 16 * (par.tRslot - par.tRl) := by
  have hskip : ones 0xCC = 4 := by decide
  have hconvert : ones 0x44 = 2 := by decide
  have hread : ones 0xBE = 6 := by decide
  have hwait : waitTotalUs [.waitMs 750] = 0 := rfl
  simp only [temperatureSequence, waitTotalUs_append, waitTotalUs_resetSequence, waitTotalUs_writeSlots,
    waitTotalUs_readSlots, hskip, hconvert, hread, hwait]
  ring

/-- Only the conversion waits milliseconds. -/
theorem waitTotalMs_temperatureSequence : waitTotalMs temperatureSequence = 750 := by
  have hreset : waitTotalMs resetSequence = 0 := rfl
  have hread : waitTotalMs readSlots = 0 := rfl
  have hwait : waitTotalMs [.waitMs 750] = 750 := rfl
  simp only [temperatureSequence, waitTotalMs_append, waitTotalMs_writeSlots, hreset, hread, hwait]

/-! ### The commands -/

theorem eventList_writeBit (l : Latches) : eventList .writeBit l = writeSlot l.txd[0] := wbit_eq_writeSlot _

theorem eventList_writeByte (l : Latches) : eventList .writeByte l = writeSlots l.txd := wbyte_eq_writeSlots _

theorem eventList_readByte (l : Latches) : eventList .readByte l = readSlots := rbyte_eq_readSlots

theorem eventList_readTemp (l : Latches) : eventList .readTemp l = temperatureSequence := eventsReadTemp_eq l

/-- No command but READ_TEMP waits milliseconds (R291). -/
theorem waitTotalMs_eventList {i : Instr} (l : Latches) (hi : i ≠ .readTemp) : waitTotalMs (eventList i l) = 0 := by
  cases i with
  | nop | compensate | altitude | reset | readBit => rfl
  | writeBit => rw [eventList_writeBit, waitTotalMs_writeSlot]
  | writeByte => rw [eventList_writeByte, waitTotalMs_writeSlots]
  | readByte => rw [eventList_readByte]; rfl
  | readTemp => exact absurd rfl hi

/-- Settles O46: each row of R291 is the wait of the command's printed sequence. -/
theorem nominalWaitTotals : Obligations.NominalWaitTotals := by
  intro l
  refine ⟨fun i hi => ?engineOnly, waitTotalUs_resetSequence, fun hone => ?one, fun hzero => ?zero,
    waitTotalUs_readSlot, ?writeByte, ?readByte, ?readTempUs, ?readTempMs, fun i => waitTotalMs_eventList l⟩
  case engineOnly =>
    simp only [List.mem_cons, List.not_mem_nil, or_false] at hi
    rcases hi with rfl | rfl | rfl <;> rfl
  case one => rw [eventList_writeBit, waitTotalUs_writeSlot, hone]; simp
  case zero => rw [eventList_writeBit, waitTotalUs_writeSlot, hzero]; simp
  case writeByte => rw [eventList_writeByte, waitTotalUs_writeSlots]
  case readByte => rw [eventList_readByte, waitTotalUs_readSlots]
  case readTempUs => rw [eventList_readTemp, waitTotalUs_temperatureSequence]
  case readTempMs => rw [eventList_readTemp, waitTotalMs_temperatureSequence]

end Sys2Proof.Machine
end

section
/-! The encoding of the nine commands (R90 to R93): a command word is its opcode with zeros above. -/

namespace Sys2Proof.Machine

/-- The command word as a number: the opcode, with zeros above (R90). -/
theorem encode_toNat (i : Instr) : (encode i).toNat = i.opcode.toNat := BitVec.toNat_setWidth_of_le (by decide)

/-- Opcodes are numbers below 16. -/
theorem opcode_toNat_mod (i : Instr) : i.opcode.toNat % 16 = i.opcode.toNat := Nat.mod_eq_of_lt i.opcode.isLt

/-- The legal opcodes are 0 to 8 (R91). -/
theorem opcode_toNat_le (i : Instr) : i.opcode.toNat ≤ 8 := by cases i <;> decide

/-- A command's own word decodes to it. -/
theorem decode_encode (i : Instr) : decode (encode i) = .ok i := by
  rw [decode_ok_iff, encode_toNat, opcode_toNat_mod]

/-- The decoder of bytes joins the four lanes again (R65). -/
theorem decodeBytes_encodeBytes (i : Instr) : decodeBytes (encodeBytes i) = decode (encode i) := by
  rw [encodeBytes, decodeBytes, wordOfLanes_lane]

/-- A command's own word is one software may write (R90, R92). -/
theorem commandWordWellFormed_encode (i : Instr) : commandWordWellFormed (encode i) = true := by
  have hle := opcode_toNat_le i
  simp only [commandWordWellFormed, encode_toNat, Bool.and_eq_true, decide_eq_true_eq]
  omega

/-- The bits of a word that count, as a number: its value mod 16. -/
theorem maskedWord_toNat (v : Word) : (v &&& 0x0000000F#32).toNat = v.toNat % 16 :=
  Nat.and_two_pow_sub_one_eq_mod v.toNat 4

/-- Settles O29: both sides of the last clause compare the word's value mod 16 with the opcode. -/
theorem decodeEncodeAgree : Obligations.DecodeEncodeAgree := by
  intro i
  refine ⟨decode_encode i, (decodeBytes_encodeBytes i).trans (decode_encode i), commandWordWellFormed_encode i,
    fun v => ?_⟩
  rw [decode_ok_iff, ← BitVec.toNat_inj, maskedWord_toNat, encode_toNat]

/-- Settles O30: OP is the value mod 16, and the decoder rejects it by name from 9 on. -/
theorem decodeReadsOpcodeField : Obligations.DecodeReadsOpcodeField := fun v =>
  ⟨decode_ok_iff v, by rw [← decode_error_iff, opField_eq_ofNat]⟩

/-- Settles O31: seven words by their value mod 16, the last one a reserved opcode. -/
theorem writtenOutWordsDecode : Obligations.WrittenOutWordsDecode := by
  unfold Obligations.WrittenOutWordsDecode
  simp only [decode_ok_iff]
  exact ⟨rfl, rfl, rfl, rfl, rfl, rfl, rfl, (decode_error_iff 0x00000009#32).2 (by decide)⟩

end Sys2Proof.Machine
end

section
/-! What one step can do, said once (R70, R71): the state after the input has left the list, and the turn taken in
it. -/

namespace Sys2Proof.Machine

/-- `s` with the first input to come taken. -/
def State.taken (s : State) : State := { s with inputs := s.inputs.tail }

/-- With no input left none is taken. -/
theorem State.taken_of_nil {s : State} (h : s.inputs = []) : s.taken = s := by rw [taken, h, List.tail_nil, ← h]

/-- The first of some inputs is taken. -/
theorem State.taken_of_cons {s : State} {i : Input} {rest : List Input} (h : s.inputs = i :: rest) :
    s.taken = { s with inputs := rest } := by rw [taken, h, List.tail_cons]

/-- Every turn of the machine but a reset, from a state `u` whose input has been taken. -/
inductive Turn (u : State) : State → Prop where
  /-- Nothing changes: an idle engine's turn (R116), or a write to a reserved offset (R63). -/
  | stays : Turn u u
  /-- The host reads a register (R68). -/
  | reads (off : BitVec 7) : Turn u (logRead off u)
  /-- The host writes a register other than CMD (R64). -/
  | writes (r : Reg) (v : Word) : Turn u (writeReg r v u)
  /-- The host polls (R96). -/
  | polls : Turn u (hostPoll u)
  /-- A CMD write to a busy engine is dropped (R112). -/
  | drops (hbusy : u.status.busy = true) : Turn u (dropCommand u)
  /-- A legal command is accepted (R110). -/
  | accepts (i : Instr) (hidle : u.status.busy = false) : Turn u (accept i.opcode (eventList i) u)
  /-- A reserved opcode is recorded (R111). -/
  | rejects (v : Word) (hidle : u.status.busy = false) (hop : 9 ≤ (opField v).toNat) : Turn u (illegalCommand v u)
  /-- The running command performs its next event (R113). -/
  | performs (e : BusOp) (hbusy : u.status.busy = true) (he : u.events[u.ev]? = some e) : Turn u (performEvent e u)
  /-- The running command completes (R114). -/
  | completes (i : Instr) (hruns : runs i u) (hend : u.events[u.ev]? = none) : Turn u (complete (doneOf i) u)

/-- A rejected command word holds a reserved opcode. -/
theorem reserved_of_decode_error {v : Word} {r : Reject} (h : decode v = .error r) : 9 ≤ (opField v).toNat := by
  rcases decodeOp_cases (opField v) with ⟨i, hi, -⟩ | ⟨-, hop⟩
  · rw [decode, hi] at h
    cases h
  · exact hop

/-- The engine idles, performs an event, or completes. -/
theorem engineTurn_turn {u t : State} (h : engineTurn u = .next t) : Turn u t := by
  rcases engineTurn_cases h with ⟨-, rfl⟩ | ⟨hbusy, i, hop, ⟨e, he, rfl⟩ | ⟨hend, rfl⟩⟩
  · exact .stays
  · exact .performs e hbusy he
  · exact .completes i ⟨hbusy, hop⟩ hend

/-- A CMD write is dropped, accepted, or recorded as illegal. -/
theorem commandWrite_turn {v : Word} {u t : State} (h : commandWrite v u = .next t) : Turn u t := by
  rcases commandWrite_cases h with ⟨hbusy, rfl⟩ | ⟨hidle, i, -, rfl⟩ | ⟨hidle, ⟨r, hr⟩, rfl⟩
  · exact .drops hbusy
  · exact .accepts i hidle
  · exact .rejects v hidle (reserved_of_decode_error hr)

/-- A host write is a command, a stored value, or ignored. -/
theorem hostWrite_turn {off : BitVec 7} {width : Width} {v : Word} {u t : State}
    (h : hostWrite off width v u = .next t) : Turn u t := by
  rcases (hostWrite_cases h).2 with ⟨-, hcmd⟩ | ⟨r, -, -, rfl⟩ | ⟨-, rfl⟩
  · exact commandWrite_turn hcmd
  · exact .writes r v
  · exact .stays

/-- A step is a reset, or one of the turns. -/
theorem step_turn {s t : State} (h : step s = .next t) :
    ((∃ rest, s.inputs = .reset :: rest) ∧ t = takeReset s.taken) ∨ Turn s.taken t := by
  rcases step_cases h with ⟨hnil, hturn⟩ | ⟨rest, u, rfl, hcase⟩
  · rw [State.taken_of_nil hnil]
    exact .inr (engineTurn_turn hturn)
  · rcases hcase with ⟨hin, hturn⟩ | ⟨off, width, hin, hread⟩ | ⟨off, width, v, hin, hwrite⟩ | ⟨hin, rfl⟩ | ⟨hin, rfl⟩
    all_goals rw [State.taken_of_cons hin]
    · exact .inr (engineTurn_turn hturn)
    · obtain rfl := (hostRead_cases hread).2
      exact .inr (.reads off)
    · exact .inr (hostWrite_turn hwrite)
    · exact .inr .polls
    · exact .inl ⟨⟨rest, hin⟩, rfl⟩

end Sys2Proof.Machine
end

section
/-! The trace, the running command and the results over one step (R24, R43, R71, R73, R77). -/

namespace Sys2Proof.Machine

/-- An event of the list leaves one event in the trace (R113). -/
theorem performEvent_trace (e : BusOp) (s : State) :
    (performEvent e s).trace = s.trace ++ performed [e] [senseBit s] := by cases e <;> rfl

/-- Only a sample adds to the samples (R113). -/
theorem performEvent_samples (e : BusOp) (s : State) :
    (performEvent e s).samples = if e = .sample then s.samples ++ [senseBit s] else s.samples := by cases e <;> rfl

/-- Only a drive moves DRIVE (R113, R131). -/
theorem performEvent_drive (e : BusOp) (s : State) : (performEvent e s).drive = driveAfter [e] s.drive := by
  cases e <;> rfl

/-- What an event step leaves of the device: after a sample a script has given one answer (notes/assumptions/6.md). -/
theorem performEvent_device (e : BusOp) (s : State) :
    (performEvent e s).device = if e = .sample then deviceAfterSample s.device else s.device := by cases e <;> rfl

/-! What no completion writes (R42), field by field for `simp`. -/

@[simp] theorem doneOf_cmd (i : Instr) (l : Latches) (ss : List Bit) (s : State) : (doneOf i l ss s).cmd = s.cmd := by cases i <;> rfl
@[simp] theorem doneOf_txdata (i : Instr) (l : Latches) (ss : List Bit) (s : State) : (doneOf i l ss s).txdata = s.txdata := by cases i <;> rfl
@[simp] theorem doneOf_praw (i : Instr) (l : Latches) (ss : List Bit) (s : State) : (doneOf i l ss s).praw = s.praw := by cases i <;> rfl
@[simp] theorem doneOf_tfine (i : Instr) (l : Latches) (ss : List Bit) (s : State) : (doneOf i l ss s).tfine = s.tfine := by cases i <;> rfl
@[simp] theorem doneOf_cal (i : Instr) (l : Latches) (ss : List Bit) (s : State) : (doneOf i l ss s).cal = s.cal := by cases i <;> rfl
@[simp] theorem doneOf_latch (i : Instr) (l : Latches) (ss : List Bit) (s : State) : (doneOf i l ss s).latch = s.latch := by cases i <;> rfl
@[simp] theorem doneOf_events (i : Instr) (l : Latches) (ss : List Bit) (s : State) : (doneOf i l ss s).events = s.events := by cases i <;> rfl
@[simp] theorem doneOf_ev (i : Instr) (l : Latches) (ss : List Bit) (s : State) : (doneOf i l ss s).ev = s.ev := by cases i <;> rfl
@[simp] theorem doneOf_samples (i : Instr) (l : Latches) (ss : List Bit) (s : State) : (doneOf i l ss s).samples = s.samples := by cases i <;> rfl
@[simp] theorem doneOf_drive (i : Instr) (l : Latches) (ss : List Bit) (s : State) : (doneOf i l ss s).drive = s.drive := by cases i <;> rfl
@[simp] theorem doneOf_trace (i : Instr) (l : Latches) (ss : List Bit) (s : State) : (doneOf i l ss s).trace = s.trace := by cases i <;> rfl
@[simp] theorem doneOf_inputs (i : Instr) (l : Latches) (ss : List Bit) (s : State) : (doneOf i l ss s).inputs = s.inputs := by cases i <;> rfl
@[simp] theorem doneOf_device (i : Instr) (l : Latches) (ss : List Bit) (s : State) : (doneOf i l ss s).device = s.device := by cases i <;> rfl
@[simp] theorem doneOf_readLog (i : Instr) (l : Latches) (ss : List Bit) (s : State) : (doneOf i l ss s).readLog = s.readLog := by cases i <;> rfl
@[simp] theorem doneOf_illegal (i : Instr) (l : Latches) (ss : List Bit) (s : State) : (doneOf i l ss s).status.illegal = s.status.illegal := by cases i <;> rfl
@[simp] theorem doneOf_ovr (i : Instr) (l : Latches) (ss : List Bit) (s : State) : (doneOf i l ss s).status.ovr = s.status.ovr := by cases i <;> rfl

/-- Settles O54: an event step adds one event, a reset two at most, every other turn none. -/
theorem traceOnlyGrows : Obligations.TraceOnlyGrows := by
  intro s t hstep
  rcases step_turn hstep with ⟨-, rfl⟩ | hturn
  case inl =>
    refine ⟨resetEvents s.taken, rfl, ?_⟩
    rcases resetEvents_cases s.taken with ⟨-, h⟩ | ⟨-, -, h⟩ | ⟨-, -, h⟩ <;> simp [h]
  case inr =>
    have hquiet (h : t.trace = s.trace) : ∃ es, t.trace = s.trace ++ es ∧ es.length ≤ 2 := ⟨[], by simp [h], by simp⟩
    cases hturn with
    | performs e hbusy he =>
      refine ⟨_, performEvent_trace e s.taken, ?_⟩
      cases e <;> simp [performed]
    | _ => exact hquiet (by simp [State.taken])

/-- Settles O55: to stay busy a step can only perform an event or leave the engine alone. -/
theorem runningCommandIsFixed : Obligations.RunningCommandIsFixed := by
  intro s t hstep hbusy hstill
  rcases step_turn hstep with ⟨-, rfl⟩ | hturn
  case inl => exact absurd hstill Bool.false_ne_true
  case inr =>
    have hbusy' : s.taken.status.busy = true := hbusy
    cases hturn with
    | performs e _ he =>
      refine ⟨by simp [State.taken], by simp [State.taken], by simp [State.taken], by simp [State.taken],
        by simp [State.taken], ?_⟩
      rw [performEvent_samples]
      split
      · exact ⟨_, rfl⟩
      · exact ⟨[], (List.append_nil _).symm⟩
    | completes i => simp at hstill
    | accepts i hidle => simp [hbusy'] at hidle
    | rejects v hidle => simp [hbusy'] at hidle
    | _ => simp [State.taken]

/-- Settles O56: acceptance, events and host accesses write no result; a completion would end the command. -/
theorem resultsChangeAtCompletion : Obligations.ResultsChangeAtCompletion := by
  intro s t hstep hreset hrunning
  rcases step_turn hstep with ⟨⟨rest, hin⟩, -⟩ | hturn
  case inl => exact absurd hin (hreset rest)
  case inr =>
    cases hturn with
    | completes i hruns hend =>
      have hbusy : s.status.busy = true := hruns.1
      simp [hbusy] at hrunning
    | _ => simp [State.taken]

/-- Settles O57: the engine's turn is one of its turns, and none of them writes a host's register. -/
theorem engineNeverWritesOperands : Obligations.EngineNeverWritesOperands := by
  intro s t hin hstep
  have hturn : engineTurn s.taken = .next t := by
    rcases hin with hnil | ⟨rest, hcons⟩
    · rw [State.taken_of_nil hnil, ← step_nil hnil, hstep]
    · rw [State.taken_of_cons hcons, ← hstep, step_cons hcons, takeInput]
  rcases engineTurn_cases hturn with ⟨-, rfl⟩ | ⟨-, i, -, ⟨e, -, rfl⟩ | ⟨-, rfl⟩⟩
  all_goals simp [State.taken]

end Sys2Proof.Machine
end

section
/-! The invariant: at reset, over every turn, and what it gives (R22, R28, R36, R44, R74, R116). -/

namespace Sys2Proof.Machine

/-- The invariant speaks neither of the host's registers nor of the surroundings. -/
theorem State.Inv.of_same {u t : State} (h : u.Inv) (hcmd : t.cmd = u.cmd) (hbusy : t.status.busy = u.status.busy)
    (hillegal : t.status.illegal = u.status.illegal) (hdivz : t.status.divz = u.status.divz)
    (hscratch : t.scratch = u.scratch) (htemp : t.temp = u.temp) (hpress : t.press = u.press)
    (hlatch : t.latch = u.latch) (hevents : t.events = u.events) (hev : t.ev = u.ev) (hsamples : t.samples = u.samples)
    (hdrive : t.drive = u.drive) (htrace : t.trace = u.trace) : t.Inv := by
  constructor
  all_goals simp only [hcmd, hbusy, hillegal, hdivz, hscratch, htemp, hpress, hlatch, hevents, hev, hsamples, hdrive,
    htrace]
  exacts [h.evInRange, h.samplesCounted, h.running, h.contiguous, h.driven, h.released, h.finished, h.illegalOpcode,
    h.sentinel, h.scaled]

/-- An idle state with the registers and the sequencer of reset meets the invariant, whatever its trace. -/
theorem inv_takeReset (s : State) : (takeReset s).Inv where
  evInRange := Nat.le_refl _
  samplesCounted := rfl
  running := nofun
  contiguous := nofun
  driven := nofun
  released _ := rfl
  finished _ := rfl
  illegalOpcode := rfl
  sentinel := nofun
  scaled := show (0 : Word) = BitVec.ofInt 32 (scaledTemperature 0) by decide

/-- Settles O47: the reset input leaves the reset state as it is. -/
theorem resetStateMeetsInv : Obligations.ResetStateMeetsInv := inv_takeReset State.reset

/-- A command is accepted from the released line, with no event performed and its own list to come (R110). -/
theorem inv_accept {u : State} (h : u.Inv) (hidle : u.status.busy = false) (i : Instr) :
    (accept i.opcode (eventList i) u).Inv where
  evInRange := Nat.zero_le _
  samplesCounted := rfl
  running _ := ⟨rfl, i, (decodeOp_ok_iff _ i).2 rfl, rfl⟩
  contiguous _ := ⟨u.trace, (List.append_nil _).symm⟩
  driven _ := h.released hidle
  released := nofun
  finished := nofun
  illegalOpcode := (decide_eq_false (opcode_toNat_le i).not_gt).symm
  sentinel := h.sentinel
  scaled := h.scaled

/-- A reserved opcode in CMD goes with ILLEGAL = 1; the engine stays idle (R111). -/
theorem inv_illegalCommand {u : State} (h : u.Inv) (hidle : u.status.busy = false) {v : Word}
    (hop : 9 ≤ (opField v).toNat) : (illegalCommand v u).Inv where
  evInRange := h.evInRange
  samplesCounted := h.samplesCounted
  running hbusy := by simp [hidle] at hbusy
  contiguous hbusy := by simp [hidle] at hbusy
  driven hbusy := by simp [hidle] at hbusy
  released _ := h.released hidle
  finished _ := h.finished hidle
  illegalOpcode := (decide_eq_true hop).symm
  sentinel := h.sentinel
  scaled := h.scaled

/-- An event moves the sequencer, the trace and the line on by itself (R113): each clause about the events performed
gains one. -/
theorem inv_performEvent {u : State} (h : u.Inv) (hbusy : u.status.busy = true) {e : BusOp}
    (he : u.events[u.ev]? = some e) : (performEvent e u).Inv where
  evInRange := by
    obtain ⟨hlt, -⟩ := List.getElem?_eq_some_iff.1 he
    simpa using hlt
  samplesCounted := by
    rw [performEvent_events, performEvent_ev, take_succ_events he, sampleCount_concat, performEvent_samples,
      ← h.samplesCounted]
    split <;> simp
  running _ := by simpa using h.running hbusy
  contiguous _ := by
    obtain ⟨before, htrace⟩ := h.contiguous hbusy
    refine ⟨before, ?_⟩
    rw [performEvent_events, performEvent_ev, take_succ_events he, performEvent_samples,
      performed_concat e _ h.samplesCounted, performEvent_trace, htrace, List.append_assoc]
  driven _ := by
    rw [performEvent_events, performEvent_ev, take_succ_events he, driveAfter_append, performEvent_drive,
      h.driven hbusy]
  released hidle := by simp [hbusy] at hidle
  finished hidle := by simp [hbusy] at hidle
  illegalOpcode := by simpa using h.illegalOpcode
  sentinel := by simpa using h.sentinel
  scaled := by simpa using h.scaled

/-- A completion that sets DIVZ writes the sentinel with it, and any other leaves both (R28, R194). -/
theorem doneOf_sentinel {u : State} (i : Instr) (l : Latches) (ss : List Bit)
    (h : u.status.divz = true → u.press = 0) :
    (doneOf i l ss u).status.divz = true → (doneOf i l ss u).press = 0 := by
  cases i with
  | compensate | altitude => exact comp_sentinel
  | _ => exact h

/-- READ_TEMP writes TEMP with SCRATCH, and any other command leaves both (R176). -/
theorem doneOf_scaled {u : State} (i : Instr) (l : Latches) (ss : List Bit)
    (h : u.temp = BitVec.ofInt 32 (scaledTemperature u.scratch)) :
    (doneOf i l ss u).temp = BitVec.ofInt 32 (scaledTemperature (doneOf i l ss u).scratch) := by
  cases i with
  | readTemp => rfl
  | _ => exact h

/-- With its event list behind it a command has released the line (R142). -/
theorem drive_at_end {u : State} (h : u.Inv) (hbusy : u.status.busy = true) (hend : u.ev = u.events.length) :
    u.drive = true := by
  obtain ⟨-, i, -, hevents⟩ := h.running hbusy
  rw [h.driven hbusy, hend, List.take_length, hevents]
  exact (commandsReleaseTheLine i u.latch).1

/-- A completion finds the event list at its end and the line released (R114). -/
theorem inv_complete {u : State} (h : u.Inv) (hbusy : u.status.busy = true) (hend : u.events[u.ev]? = none)
    (i : Instr) : (complete (doneOf i) u).Inv := by
  have hlast : u.ev = u.events.length := Nat.le_antisymm h.evInRange (List.getElem?_eq_none_iff.1 hend)
  exact
    { evInRange := by simpa using h.evInRange
      samplesCounted := by simpa using h.samplesCounted
      running := nofun
      contiguous := nofun
      driven := nofun
      released := fun _ => by simpa using drive_at_end h hbusy hlast
      finished := fun _ => by simpa using hlast
      illegalOpcode := by simpa using h.illegalOpcode
      sentinel := doneOf_sentinel i _ _ h.sentinel
      scaled := doneOf_scaled i _ _ h.scaled }

/-- Every turn keeps the invariant. -/
theorem Turn.keeps_inv {u t : State} (hturn : Turn u t) (h : u.Inv) : t.Inv := by
  cases hturn with
  | accepts i hidle => exact inv_accept h hidle i
  | rejects v hidle hop => exact inv_illegalCommand h hidle hop
  | performs e hbusy he => exact inv_performEvent h hbusy he
  | completes i hruns hend => exact inv_complete h hruns.1 hend i
  | stays => exact h
  | reads | writes | polls | drops => apply h.of_same <;> simp

/-- Taking an input touches no clause of the invariant. -/
theorem State.Inv.taken {s : State} (h : s.Inv) : s.taken.Inv := by
  apply h.of_same <;> rfl

/-- Settles O48: every turn keeps the invariant, and a reset starts it afresh. -/
theorem stepKeepsInv : Obligations.StepKeepsInv := by
  intro s t h hstep
  rcases step_turn hstep with ⟨-, rfl⟩ | hturn
  · exact inv_takeReset s.taken
  · exact hturn.keeps_inv h.taken

/-! ### What the invariant gives -/

/-- A poll leaves the inputs, or puts the engine's turn and itself before them; every other turn leaves them. -/
theorem Turn.inputs_cases {u t : State} (hturn : Turn u t) :
    t.inputs = u.inputs ∨ t.inputs = .engineTurn :: .poll :: u.inputs := by
  cases hturn with
  | polls =>
    rcases hostPoll_cases u with ⟨-, h⟩ | ⟨-, h⟩
    · exact .inl (by rw [h, logRead_inputs])
    · exact .inr (by rw [h])
  | _ => exact .inl (by simp)

/-- What is still to come after a step is defined, if everything was (R62). -/
theorem step_inputsDefined {s t : State} (hdefined : inputsDefined s) (hstep : step s = .next t) : inputsDefined t := by
  have htail : inputsDefined s.taken := fun i hi => hdefined i (List.mem_of_mem_tail hi)
  rcases step_turn hstep with ⟨-, rfl⟩ | hturn
  · exact htail
  · intro i hi
    rcases hturn.inputs_cases with h | h <;> rw [h] at hi
    · exact htail i hi
    · simp only [List.mem_cons] at hi
      rcases hi with rfl | rfl | hi
      · rfl
      · rfl
      · exact htail i hi

/-- No command's meaning stops. -/
theorem exec_answers (i : Instr) (s : State) : ∃ t, exec i s = .next t := by
  rw [exec_eq_runCommand, runCommand]
  split
  · split
    · split <;> exact ⟨_, rfl⟩
    · exact ⟨_, rfl⟩
  · exact ⟨_, rfl⟩

/-- No command word stops the machine: it is dropped, given to the engine, or recorded. -/
theorem commandWrite_answers (v : Word) (s : State) : ∃ t, commandWrite v s = .next t := by
  rw [commandWrite]
  split
  · exact ⟨_, rfl⟩
  · split
    · exact exec_answers _ s
    · exact ⟨_, rfl⟩

/-- A defined write never stops the machine (R62). -/
theorem hostWrite_answers {off : BitVec 7} {width : Width} (hd : accessDefined off width = true) (v : Word)
    (s : State) : ∃ t, hostWrite off width v s = .next t := by
  rw [hostWrite, if_pos hd]
  split
  · exact commandWrite_answers v s
  · exact ⟨_, rfl⟩
  · exact ⟨_, rfl⟩

/-- Under the invariant the engine's turn never stops: a running command is a legal one. -/
theorem engineTurn_answers {s : State} (h : s.Inv) : ∃ t, engineTurn s = .next t := by
  rw [engineTurn]
  split
  · next hbusy =>
    obtain ⟨-, i, hop, -⟩ := h.running hbusy
    rw [hop]
    exact exec_answers i s
  · exact ⟨_, rfl⟩

/-- A well-formed input never stops a state that meets the invariant. -/
theorem takeInput_answers {i : Input} (hi : i.wellFormed = true) {s : State} (h : s.Inv) :
    ∃ t, takeInput i s = .next t := by
  cases i with
  | engineTurn => exact engineTurn_answers h
  | hostRead off width => exact ⟨_, if_pos hi⟩
  | hostWrite off width v => exact hostWrite_answers hi v s
  | poll | reset => exact ⟨_, rfl⟩

/-- Settles O49: neither the engine's turn nor a well-formed input stops. -/
theorem definedAccessesNeverStop : Obligations.DefinedAccessesNeverStop := by
  intro s h hdefined
  have hanswers : ∃ t, step s = .next t := by
    cases hin : s.inputs with
    | nil =>
      rw [step_nil hin]
      exact engineTurn_answers h
    | cons i rest =>
      rw [step_cons hin, ← State.taken_of_cons hin]
      exact takeInput_answers (hdefined i (by simp [hin])) h.taken
  obtain ⟨t, hstep⟩ := hanswers
  exact ⟨t, hstep, step_inputsDefined hdefined hstep⟩

/-! ### DRIVE at a sample (R76) -/

/-- Every sample of the list finds the line released, when the list begins at the given level. -/
def sampledReleased (es : List BusOp) (v : Bit) : Bool :=
  match es with
  | [] => true
  | .drive w :: rest => sampledReleased rest w
  | .waitUs _ :: rest => sampledReleased rest v
  | .waitMs _ :: rest => sampledReleased rest v
  | .sample :: rest => v && sampledReleased rest v

/-- DRIVE before any one sample of such a list. -/
theorem driveAfter_at_sample {es : List BusOp} {v : Bit} {n : Nat} (h : sampledReleased es v = true)
    (hn : es[n]? = some .sample) : driveAfter (es.take n) v = true := by
  induction es generalizing v n with
  | nil => simp at hn
  | cons e es ih =>
    cases n with
    | zero =>
      obtain rfl : e = .sample := by simpa using hn
      exact (Bool.and_eq_true_iff.1 h).1
    | succ n =>
      rw [List.getElem?_cons_succ] at hn
      cases e with
      | sample => exact ih (Bool.and_eq_true_iff.1 h).2 hn
      | drive | waitUs | waitMs => exact ih h hn

/-- Two lists in a row: the second begins at the level the first leaves. -/
theorem sampledReleased_append (a b : List BusOp) (v : Bit) :
    sampledReleased (a ++ b) v = (sampledReleased a v && sampledReleased b (driveAfter a v)) := by
  induction a generalizing v with
  | nil => rfl
  | cons e a ih => cases e <;> simp [sampledReleased, driveAfter, ih, Bool.and_assoc]

/-- A write slot takes no sample (R137). -/
theorem sampledReleased_wbit (b : Bit) : sampledReleased (wbit b) true = true := by cases b <;> rfl

/-- A byte's framing takes no sample (R160). -/
theorem sampledReleased_wbyte (v : Byte) : sampledReleased (wbyte v) true = true := by
  simp only [wbyte_slots, sampledReleased_append, driveAfter_append, driveAfter_wbit, sampledReleased_wbit,
    Bool.and_self]

/-- A reset samples after its release (R135). -/
theorem sampledReleased_rst : sampledReleased rst true = true := rfl

/-- Each read slot samples after its release (R139, R162). -/
theorem sampledReleased_rbyte : sampledReleased rbyte true = true := rfl

/-- READ_TEMP is made of such sequences, each of which leaves the line released (R171). -/
theorem sampledReleased_eventsReadTemp (l : Latches) : sampledReleased (eventsReadTemp l) true = true := by
  have hconversion : sampledReleased [.waitMs Config.tConv] true = true := rfl
  have hconversionEnd : driveAfter [.waitMs Config.tConv] true = true := rfl
  simp only [eventsReadTemp, sampledReleased_append, driveAfter_append, sampledReleased_rst, sampledReleased_wbyte,
    sampledReleased_rbyte, hconversion, hconversionEnd, rst_isPulse.releases, (wbyte_isPulse _).releases,
    rbyte_isPulse.releases, Bool.and_self]

/-- Every command samples a released line only. -/
theorem sampledReleased_eventList (i : Instr) (l : Latches) : sampledReleased (eventList i l) true = true := by
  cases i with
  | nop | compensate | altitude => rfl
  | reset => exact sampledReleased_rst
  | writeBit => exact sampledReleased_wbit _
  | readBit => rfl
  | writeByte => exact sampledReleased_wbyte _
  | readByte => exact sampledReleased_rbyte
  | readTemp => exact sampledReleased_eventsReadTemp l

/-- Settles O53: the invariant gives DRIVE by the events performed, and the coming sample is one of the list. -/
theorem wireSamplesReadOne : Obligations.WireSamplesReadOne := by
  intro s
  refine ⟨fun hfree => by rw [senseBit, hfree], fun hwire => by rw [senseBit, hwire], fun h hbusy hnext => ?_⟩
  obtain ⟨-, i, -, hevents⟩ := h.running hbusy
  rw [h.driven hbusy]
  exact driveAfter_at_sample (hevents ▸ sampledReleased_eventList i s.latch) hnext

end Sys2Proof.Machine
end

section
/-! The commands without a bus event, and what every command's event step and completion do (R113, R114, R117, R197,
R235). -/

namespace Sys2Proof.Machine

open Sys2Proof.Statement

/-- R113 for every command: running, with an event left, it performs that event. -/
theorem exec_performs {s : State} {i : Instr} {e : BusOp} (hruns : runs i s) (he : s.events[s.ev]? = some e) :
    exec i s = .next (performEvent e s) := by
  obtain ⟨hbusy, hop⟩ := hruns
  rw [exec_eq_runCommand, runCommand_event _ _ hbusy hop he]

/-- A command given to an engine that runs another one is turned away (notes/assumptions/1.md). -/
theorem exec_drops {s : State} {i : Instr} (hbusy : s.status.busy = true) (hop : s.latch.op ≠ i.opcode) :
    exec i s = .next (dropCommand s) := by
  rw [exec_eq_runCommand, runCommand, if_pos hbusy, if_neg hop]

/-- R117 at the end of NOP: only BUSY is written. -/
theorem complete_nop (s : State) : complete (doneOf .nop) s = idleState s := rfl

/-- R235 at the end of ALTITUDE: PRESS and DIVZ as COMPENSATE, ALT and ALTR by the formula on that pressure. -/
theorem complete_altitude {s : State} {p : Word} {g : Bit}
    (hcomp : comp s.latch.praw s.latch.tfine s.latch.cal = (p, g)) :
    complete (doneOf .altitude) s
      = { s with
          press := p
          alt := (convertAltitude (altitudeValue Config.pow p)).1
          status :=
            { s.status with divz := g, altr := (convertAltitude (altitudeValue Config.pow p)).2, busy := false } } := by
  obtain ⟨rfl, rfl⟩ := Prod.mk.inj hcomp.symm
  rfl

/-- Settles O1: no event is accepted, and the completion writes nothing of its own. -/
theorem nopAcceptsAndCompletes : Obligations.NopAcceptsAndCompletes := by
  intro s
  refine ⟨fun hidle => exec_accepts .nop hidle, fun hruns hend => ?_⟩
  rw [exec_completes hruns hend, complete_nop]

/-- Settles O8: no event is accepted, and the completion writes COMP of the latches. -/
theorem compensateWritesPressure : Obligations.CompensateWritesPressure := by
  intro s
  refine ⟨fun hidle => exec_accepts .compensate hidle, fun hruns hend => ?_⟩
  rw [exec_completes hruns hend, complete_compensate]

/-- Settles O9: no event is accepted, and the completion runs the formula on the compensated pressure. -/
theorem altitudeWritesResults : Obligations.AltitudeWritesResults := by
  intro s
  refine ⟨fun hidle => exec_accepts .altitude hidle, fun p g hruns hend hcomp => ?_⟩
  rw [exec_completes hruns hend, complete_altitude hcomp]

/-- Settles O10: the lifecycle performs the next event, whichever of the four it is. -/
theorem eventStepPerformsOneEvent : Obligations.EventStepPerformsOneEvent := fun _ _ hruns =>
  ⟨fun _ he => exec_performs hruns he, fun _ he => exec_performs hruns he, fun _ he => exec_performs hruns he,
    exec_performs hruns⟩

/-- Settles O11: each result by the commands that do not write it, then the fields no completion writes. -/
theorem completionWriteSets : Obligations.CompletionWriteSets := by
  intro i s hruns hend
  refine ⟨_, exec_completes hruns hend, rfl, ?rxdata, ?temperature, ?pressure, ?altitude, ?present, ?frame⟩
  case rxdata =>
    cases i with
    | readBit => exact fun h => absurd rfl h
    | readByte => exact fun _ h => absurd rfl h
    | _ => exact fun _ _ => rfl
  case temperature =>
    cases i with
    | readTemp => exact fun h => absurd rfl h
    | _ => exact fun _ => ⟨rfl, rfl, rfl, rfl⟩
  case pressure =>
    cases i with
    | compensate => exact fun h => absurd rfl h
    | altitude => exact fun _ h => absurd rfl h
    | _ => exact fun _ _ => ⟨rfl, rfl⟩
  case altitude =>
    cases i with
    | altitude => exact fun h => absurd rfl h
    | _ => exact fun _ => ⟨rfl, rfl⟩
  case present =>
    cases i with
    | reset => exact fun h => absurd rfl h
    | _ => exact fun _ => rfl
  case frame => simp

/-- Settles O12: the lifecycle turns the command away, which sets OVR alone. -/
theorem otherCommandIsTurnedAway : Obligations.OtherCommandIsTurnedAway := fun _ _ => exec_drops

end Sys2Proof.Machine
end

section
/-! Steps on each kind of input (R62 to R64, R68, R96, R110 to R116). -/

namespace Sys2Proof.Machine

open Sys2Proof.Statement

/-- A running engine's turn is its latched command's (R113, R114). -/
theorem engineTurn_busy {s : State} {i : Instr} (hbusy : s.status.busy = true) (hop : decodeOp s.latch.op = .ok i) :
    engineTurn s = exec i s := by
  simp [engineTurn, hbusy, hop]

/-- An idle engine's turn changes nothing (R116). -/
theorem engineTurn_idle {s : State} (hidle : s.status.busy = false) : engineTurn s = .next s := by
  simp [engineTurn, hidle]

/-- A write to CMD while idle gives the decoded command to the engine (R110). -/
theorem commandWrite_idle {v : Word} {s : State} {i : Instr} (hidle : s.status.busy = false) (hd : decode v = .ok i) :
    commandWrite v s = exec i s := by
  simp [commandWrite, hidle, hd]

/-- A write to CMD while busy is dropped (R112). -/
theorem commandWrite_busy {v : Word} {s : State} (hbusy : s.status.busy = true) :
    commandWrite v s = .next (dropCommand s) := if_pos hbusy

/-- A 32-bit host write at a register's offset is defined, and stores what that register keeps of it (R33 to R41,
R64). -/
theorem step_hostWrite_reg {s : State} {r : Reg} {v : Word} {rest : List Input} (hr : r ≠ .cmd)
    (hin : s.inputs = .hostWrite (regOffset r) .word v :: rest) :
    step s = .next (writeReg r v { s with inputs := rest }) := by
  have hdefined : accessDefined (regOffset r) .word = true := by cases r <;> rfl
  have hreg : regAt (regOffset r) = some r := (regAt_eq_some_iff _ r).2 rfl
  rw [step_cons hin, takeInput, hostWrite, if_pos hdefined, hreg]
  cases r with
  | cmd => exact absurd rfl hr
  | _ => rfl

/-- An access that is no aligned word is the model fault (R62). -/
theorem accessDefined_eq_false {off : BitVec 7} {width : Width} (h : width ≠ .word ∨ off.toNat % 4 ≠ 0) :
    accessDefined off width = false := by
  rcases h with h | h <;> simp [accessDefined, h]

/-- Settles O13: a command write, an engine turn, and the turn of an engine with no input left. -/
theorem stepRunsDecodedCommand : Obligations.StepRunsDecodedCommand := by
  intro s i rest
  refine ⟨fun v hin hidle hd => ?write, fun hin hbusy hop => ?turn, fun hin hbusy hop => ?free⟩
  case write => rw [step_hostWrite_cmd hin, commandWrite_idle (s := { s with inputs := rest }) hidle hd]
  case turn => rw [step_cons hin, takeInput, engineTurn_busy (s := { s with inputs := rest }) hbusy hop]
  case free => rw [step_nil hin, engineTurn_busy hbusy hop]

/-- Settles O14: the word placed is a CMD write to the engine made idle. -/
theorem fetchedWordRunsNext : Obligations.FetchedWordRunsNext := by
  intro s nbits w i hd
  rw [step_hostWrite_cmd (s := s.withFetchWord nbits w) rfl, commandWrite_idle rfl (decodeTableWord_some hd)]
  rfl

/-- Settles O17: the write reaches CMD, which is busy. -/
theorem busyCommandWriteIsDropped : Obligations.BusyCommandWriteIsDropped := by
  intro s v rest hin hbusy
  rw [step_hostWrite_cmd hin, commandWrite_busy (s := { s with inputs := rest }) hbusy]
  rfl

/-- Settles O18: with and without an input the engine has its turn, and is idle. -/
theorem idleEngineDoesNothing : Obligations.IdleEngineDoesNothing := by
  intro s hidle
  refine ⟨fun hin => ?_, fun rest hin => ?_⟩
  · rw [step_nil hin, engineTurn_idle hidle]
  · rw [step_cons hin, takeInput, engineTurn_idle (s := { s with inputs := rest }) hidle]

/-- The STATUS word is the number of its flags (R23, R32). -/
theorem Status.toWord_eq_ofNat (f : Status) : f.toWord = BitVec.ofNat 32 (statusNumber f) := by
  obtain ⟨b0, b1, b2, b3, b4, b5, b6, b7⟩ := f
  revert b0 b1 b2 b3 b4 b5 b6 b7
  decide

/-- What each register reads is the number the map gives at its offset (R61). -/
theorem readReg_eq_windowNumber (r : Reg) (s : State) :
    readReg r s = BitVec.ofNat 32 (windowNumber (regOffset r).toNat s) := by
  cases r with
  | status => exact s.status.toWord_eq_ofNat
  | cmd | txdata | rxdata | scratch | cal4 => exact (BitVec.ofNat_toNat _ _).symm
  | temp | praw | tfine | press | alt | cal0 | cal1 | cal2 | cal3 =>
    exact ((BitVec.ofNat_toNat _ _).trans (BitVec.setWidth_eq _)).symm

/-- Where the map has no register it gives 0 (R63). -/
theorem windowNumber_of_reserved {off : BitVec 7} (h : regAt off = none) (s : State) :
    windowNumber off.toNat s = 0 := by
  unfold regAt at h
  split at h
  case h_16 => simp [windowNumber, *]
  all_goals cases h

/-- A read returns the number the map gives at the offset (R61, R63). -/
theorem readOffset_eq_windowNumber (off : BitVec 7) (s : State) :
    readOffset off s = BitVec.ofNat 32 (windowNumber off.toNat s) := by
  unfold readOffset
  split
  · next r hr =>
    obtain rfl := (regAt_eq_some_iff off r).1 hr
    exact readReg_eq_windowNumber r s
  · next hnone => rw [windowNumber_of_reserved hnone]; rfl

/-- Settles O19: the access is defined, and what it logs is the number of the map. -/
theorem hostReadReturnsRegister : Obligations.HostReadReturnsRegister := by
  intro s off rest hin halign
  have hdefined : accessDefined off .word = true := by simp [accessDefined, halign]
  rw [step_cons hin, takeInput, hostRead, if_pos hdefined, logRead, readOffset_eq_windowNumber]
  rfl

/-- The last round of a poll (R96). -/
theorem hostPoll_idle {s : State} (hidle : s.status.busy = false) : hostPoll s = logRead (regOffset .status) s := by
  simp [hostPoll, hidle]

/-- A round of a poll that reads BUSY = 1 (R96; notes/assumptions/3.md). -/
theorem hostPoll_busy {s : State} (hbusy : s.status.busy = true) :
    hostPoll s = { logRead (regOffset .status) s with inputs := .engineTurn :: .poll :: s.inputs } := by
  simp [hostPoll, hbusy]

/-- Settles O20: one round of a poll, by what STATUS reads. -/
theorem pollReadsStatusUntilIdle : Obligations.PollReadsStatusUntilIdle := by
  intro s rest hin
  refine ⟨fun hidle => ?_, fun hbusy => ?_⟩
  · rw [step_cons hin, takeInput, hostPoll_idle (s := { s with inputs := rest }) hidle]
    rfl
  · rw [step_cons hin, takeInput, hostPoll_busy (s := { s with inputs := rest }) hbusy]
    rfl

/-- Settles O21: a read and a write fault alike. -/
theorem undefinedAccessFaults : Obligations.UndefinedAccessFaults := by
  intro s off width v rest hbad hin
  have hundefined : ¬accessDefined off width = true := by simp [accessDefined_eq_false hbad]
  rcases hin with hin | hin
  · rw [step_cons hin, takeInput, hostRead, if_neg hundefined, badAccess, hostAddress]
  · rw [step_cons hin, takeInput, hostWrite, if_neg hundefined, badAccess, hostAddress]

/-- Settles O22: eight registers, each at its offset. -/
theorem writableRegistersStore : Obligations.WritableRegistersStore := fun _ _ _ =>
  ⟨step_hostWrite_reg (r := .txdata) nofun, step_hostWrite_reg (r := .praw) nofun,
    step_hostWrite_reg (r := .tfine) nofun, step_hostWrite_reg (r := .cal0) nofun,
    step_hostWrite_reg (r := .cal1) nofun, step_hostWrite_reg (r := .cal2) nofun,
    step_hostWrite_reg (r := .cal3) nofun, step_hostWrite_reg (r := .cal4) nofun⟩

end Sys2Proof.Machine
end

section
/-! Power-on, the configuration's admission and the window's addresses (R61, R133, R280). -/

namespace Sys2Proof.Machine

open Sys2Proof.Statement

/-- Settles O26: register by register, and byte by byte of the latched calibration. -/
theorem resetStateReadsZero : Obligations.ResetStateReadsZero :=
  ⟨fun r => by cases r <;> rfl, rfl, rfl, rfl, rfl, rfl, fun _ => Vector.getElem_replicate _, rfl, rfl, rfl, rfl⟩

/-- Settles O27: the admission that the configuration carries, conjunct by conjunct. -/
theorem configurationIsAdmitted : Obligations.ConfigurationIsAdmitted := by
  have hadmitted := Config.timing.admitted
  simp only [Timing.admitted, Bool.and_eq_true, decide_eq_true_eq, List.all_eq_true] at hadmitted
  obtain ⟨⟨⟨⟨⟨⟨hhold, hreset⟩, hzero⟩, hone⟩, hrl⟩, hread⟩, hphases⟩ := hadmitted
  exact ⟨hhold, hreset, hzero, hone, hrl, hread, hphases, Nat.mul_mod_right 128 _⟩

/-- Settles O28: inside the window the offset is the distance from BASE, below 128. -/
theorem windowAddressDecodes : Obligations.WindowAddressDecodes := by
  refine ⟨fun off => ?_, fun addr hout => if_neg (by omega)⟩
  have hlt := off.isLt
  have hinside : Config.base ≤ hostAddress off ∧ hostAddress off < Config.base + 0x80 := by
    unfold hostAddress
    omega
  rw [windowOffset, if_pos hinside, hostAddress, Nat.add_sub_cancel_left, BitVec.ofNat_toNat, BitVec.setWidth_eq]

/-! ### The timed phases (R133, R134) -/

/-- Every microsecond wait of the list is one of the phases of R134. -/
def WaitsPhases (es : List BusOp) : Prop := ∀ d, .waitUs d ∈ es → d ∈ par.phases

/-- Two lists in a row wait what each waits. -/
theorem WaitsPhases.append {a b : List BusOp} (ha : WaitsPhases a) (hb : WaitsPhases b) : WaitsPhases (a ++ b) := by
  intro d hd
  exact (List.mem_append.1 hd).elim (ha d) (hb d)

/-- A row of slots waits what its slots wait. -/
theorem WaitsPhases.flatMap_range {f : Nat → List BusOp} (hf : ∀ i, WaitsPhases (f i)) (n : Nat) :
    WaitsPhases ((List.range n).flatMap f) := by
  intro d hd
  obtain ⟨i, -, hi⟩ := List.mem_flatMap.1 hd
  exact hf i d hi

/-- The three phases of a reset (R135). -/
theorem rst_waitsPhases : WaitsPhases rst := by
  simp [WaitsPhases, rst, Timing.phases, phaseRst1, phaseRst2, phaseRst3]

/-- The two phases of a read slot (R139). -/
theorem rbit_waitsPhases : WaitsPhases rbit := by
  simp [WaitsPhases, rbit, Timing.phases, phaseR2, phaseR3]

/-- The one phase of a write slot (R137). -/
theorem wbit_waitsPhases (b : Bit) : WaitsPhases (wbit b) := by
  cases b <;> simp [WaitsPhases, wbit, Timing.phases, phaseW0, phaseW1]

/-- A byte's framing waits the phases of write slots (R160). -/
theorem wbyte_waitsPhases (v : Byte) : WaitsPhases (wbyte v) :=
  WaitsPhases.flatMap_range (fun _ => wbit_waitsPhases _) 8

/-- A byte read waits the phases of read slots (R162). -/
theorem rbyte_waitsPhases : WaitsPhases rbyte := WaitsPhases.flatMap_range (fun _ => rbit_waitsPhases) 8

/-- READ_TEMP waits the phases of its parts, and once in milliseconds (R171). -/
theorem eventsReadTemp_waitsPhases (l : Latches) : WaitsPhases (eventsReadTemp l) := by
  have hconversion : WaitsPhases [.waitMs Config.tConv] := by simp [WaitsPhases]
  exact rst_waitsPhases.append (wbyte_waitsPhases skipRom) |>.append (wbyte_waitsPhases convert) |>.append hconversion
    |>.append rst_waitsPhases |>.append (wbyte_waitsPhases skipRom) |>.append (wbyte_waitsPhases readScratchpad)
    |>.append rbyte_waitsPhases |>.append rbyte_waitsPhases

/-- Every command waits the phases of R134 only. -/
theorem eventList_waitsPhases (i : Instr) (l : Latches) : WaitsPhases (eventList i l) := by
  cases i with
  | nop | compensate | altitude => exact fun _ hd => absurd hd List.not_mem_nil
  | reset => exact rst_waitsPhases
  | writeBit => exact wbit_waitsPhases _
  | readBit => exact rbit_waitsPhases
  | writeByte => exact wbyte_waitsPhases _
  | readByte => exact rbyte_waitsPhases
  | readTemp => exact eventsReadTemp_waitsPhases l

/-- Settles O45: the wait is a phase, and R133 admits every phase. -/
theorem timedPhasesAreRealisable : Obligations.TimedPhasesAreRealisable := by
  intro i l d hd
  obtain ⟨-, -, -, -, -, -, hphases, -⟩ := configurationIsAdmitted
  exact hphases d (eventList_waitsPhases i l d hd)

end Sys2Proof.Machine
end

section
/-! A run of the engine alone: the accepted command's events one step each, then its completion (R113, R114, R118,
R165). -/

namespace Sys2Proof.Machine

open Sys2Proof.Statement

/-! ### The events of a list performed in a row -/

/-- The state after the given events, performed one after the other (R113). -/
def performAll (es : List BusOp) (s : State) : State := es.foldl (fun t e => performEvent e t) s

/-- The first event, then the others. -/
theorem performAll_cons (e : BusOp) (es : List BusOp) (s : State) :
    performAll (e :: es) s = performAll es (performEvent e s) := rfl

@[simp] theorem performAll_status (es : List BusOp) (s : State) : (performAll es s).status = s.status := by
  induction es generalizing s with
  | nil => rfl
  | cons e es ih => rw [performAll_cons, ih, performEvent_status]

@[simp] theorem performAll_latch (es : List BusOp) (s : State) : (performAll es s).latch = s.latch := by
  induction es generalizing s with
  | nil => rfl
  | cons e es ih => rw [performAll_cons, ih, performEvent_latch]

@[simp] theorem performAll_events (es : List BusOp) (s : State) : (performAll es s).events = s.events := by
  induction es generalizing s with
  | nil => rfl
  | cons e es ih => rw [performAll_cons, ih, performEvent_events]

@[simp] theorem performAll_inputs (es : List BusOp) (s : State) : (performAll es s).inputs = s.inputs := by
  induction es generalizing s with
  | nil => rfl
  | cons e es ih => rw [performAll_cons, ih, performEvent_inputs]

@[simp] theorem performAll_ev (es : List BusOp) (s : State) : (performAll es s).ev = s.ev + es.length := by
  induction es generalizing s with
  | nil => rfl
  | cons e es ih => rw [performAll_cons, ih, performEvent_ev, List.length_cons, Nat.add_right_comm, Nat.add_assoc]

/-- The first event's trace, then that of the others. -/
theorem performed_cons (e : BusOp) (es : List BusOp) (b : Bit) (ss : List Bit) :
    performed (e :: es) (if e = .sample then b :: ss else ss) = performed [e] [b] ++ performed es ss := by
  cases e <;> simp [performed]

/-- Events add samples and the trace they make with them, as many samples as the list takes (R74). -/
theorem performAll_samples_trace (es : List BusOp) (s : State) :
    ∃ ss, (performAll es s).samples = s.samples ++ ss ∧ (performAll es s).trace = s.trace ++ performed es ss ∧
      ss.length = sampleCount es := by
  induction es generalizing s with
  | nil => exact ⟨[], (List.append_nil _).symm, (List.append_nil _).symm, rfl⟩
  | cons e es ih =>
    obtain ⟨ss, hsamples, htrace, hlength⟩ := ih (performEvent e s)
    refine ⟨if e = .sample then senseBit s :: ss else ss, ?_, ?_, ?_⟩
    · rw [performAll_cons, hsamples, performEvent_samples]
      split <;> simp
    · rw [performAll_cons, htrace, performEvent_trace, performed_cons, List.append_assoc]
    · by_cases he : e = .sample <;> simp [he, hlength, sampleCount]

/-- A script with enough answers gives them to the samples, in order (notes/assumptions/6.md). -/
theorem performAll_script {es : List BusOp} {answers more : List Bit} {s : State}
    (hlength : answers.length = sampleCount es) (hdevice : s.device = .script (answers ++ more)) :
    (performAll es s).samples = s.samples ++ answers ∧ (performAll es s).device = .script more := by
  induction es generalizing answers s with
  | nil =>
    obtain rfl : answers = [] := List.length_eq_zero_iff.1 hlength
    exact ⟨(List.append_nil _).symm, hdevice⟩
  | cons e es ih =>
    rw [performAll_cons]
    by_cases he : e = .sample
    · subst he
      obtain ⟨b, bs, rfl⟩ : ∃ b bs, answers = b :: bs := by
        cases answers with
        | nil => simp [sampleCount] at hlength
        | cons b bs => exact ⟨b, bs, rfl⟩
      have hsense : senseBit s = b := by rw [senseBit, hdevice]; rfl
      have hnext : (performEvent .sample s).device = .script (bs ++ more) := by
        rw [performEvent_device, if_pos rfl, hdevice]
        rfl
      obtain ⟨hsamples, hmore⟩ := ih (by simpa [sampleCount] using hlength) hnext
      refine ⟨?_, hmore⟩
      rw [hsamples, performEvent_samples, if_pos rfl, hsense, List.append_assoc, List.singleton_append]
    · have hnext : (performEvent e s).device = .script (answers ++ more) := by
        rw [performEvent_device, if_neg he, hdevice]
      obtain ⟨hsamples, hmore⟩ := ih (by simpa [sampleCount, he] using hlength) hnext
      refine ⟨?_, hmore⟩
      rw [hsamples, performEvent_samples, if_neg he]

/-! ### The run -/

/-- With no input to come a running engine's step is its command's next action. -/
theorem step_runs {s : State} {i : Instr} (hruns : runs i s) (hin : s.inputs = []) : step s = exec i s := by
  obtain ⟨hbusy, hop⟩ := hruns
  rw [step_nil hin, engineTurn_busy hbusy ((decodeOp_ok_iff _ i).2 hop.symm)]

/-- Events do not end a command. -/
theorem runs_performAll {i : Instr} {s : State} (hruns : runs i s) (es : List BusOp) : runs i (performAll es s) := by
  simpa [runs] using hruns

/-- The events next in the list take one step each (R113). -/
theorem stepMany_performAll {i : Instr} {es : List BusOp} {s : State} (hruns : runs i s) (hin : s.inputs = [])
    (hes : es <+: s.events.drop s.ev) : stepMany es.length s = .next (performAll es s) := by
  induction es generalizing s with
  | nil => rfl
  | cons e es ih =>
    obtain ⟨after, hdrop⟩ := hes
    have hnext : s.events[s.ev]? = some e := by
      rw [← List.head?_drop, ← hdrop]
      rfl
    have hrest : es ++ after = s.events.drop (s.ev + 1) := by
      rw [← List.tail_drop, ← hdrop]
      rfl
    have hstep : step s = .next (performEvent e s) := by rw [step_runs hruns hin, exec_performs hruns hnext]
    rw [List.length_cons, stepMany_next _ hstep, performAll_cons]
    refine ih (by simpa [runs] using hruns) (by simpa using hin) ⟨after, ?_⟩
    rw [performEvent_events, performEvent_ev, hrest]

@[simp] theorem acceptedState_events (i : Instr) (es : List BusOp) (s : State) : (acceptedState i es s).events = es := rfl

@[simp] theorem acceptedState_samples (i : Instr) (es : List BusOp) (s : State) : (acceptedState i es s).samples = [] :=
  rfl

@[simp] theorem acceptedState_ev (i : Instr) (es : List BusOp) (s : State) : (acceptedState i es s).ev = 0 := rfl

@[simp] theorem acceptedState_trace (i : Instr) (es : List BusOp) (s : State) : (acceptedState i es s).trace = s.trace :=
  rfl

/-- An accepted command runs, from the start of its list. -/
theorem runs_acceptedState (i : Instr) (es : List BusOp) (s : State) : runs i (acceptedState i es s) := ⟨rfl, rfl⟩

/-- The whole list, then the completion: one step more than events (R118). -/
theorem stepMany_completes {i : Instr} {s : State} (hruns : runs i s) (hin : s.inputs = []) (hev : s.ev = 0) :
    stepMany (s.events.length + 1) s = .next (complete (doneOf i) (performAll s.events s)) := by
  have hruns' := runs_performAll hruns s.events
  have hend : atEnd (performAll s.events s) := by simp [atEnd]
  have hlist : stepMany s.events.length s = .next (performAll s.events s) :=
    stepMany_performAll hruns hin (by rw [hev, List.drop_zero])
  have hlast : step (performAll s.events s) = .next (complete (doneOf i) (performAll s.events s)) := by
    rw [step_runs hruns' (by simpa using hin), exec_completes hruns' hend]
  rw [stepMany_add hlist, stepMany_next _ hlast, stepMany_zero]

/-- Settles O50: k steps perform the first k events, and one step after the last completes. -/
theorem commandCompletesOnTime : Obligations.CommandCompletesOnTime := by
  intro i s hidle hin
  refine ⟨_, exec_accepts i hidle, rfl, ?_⟩
  generalize hes : eventList i (latchOperands i.opcode s) = es
  have hruns := runs_acceptedState i es s
  rw [acceptedState_events]
  refine ⟨fun k hk => ?_, ?_⟩
  · have hfirst : stepMany (es.take k).length (acceptedState i es s) = .next (performAll (es.take k) _) :=
      stepMany_performAll hruns hin ⟨es.drop k, List.take_append_drop k es⟩
    rw [List.length_take_of_le hk] at hfirst
    refine ⟨_, hfirst, by rw [performAll_status]; rfl, ?_⟩
    rw [performAll_ev, acceptedState_ev, Nat.zero_add, List.length_take_of_le hk]
  · obtain ⟨ss, hsamples, htrace, hlength⟩ := performAll_samples_trace es (acceptedState i es s)
    rw [acceptedState_samples, List.nil_append] at hsamples
    refine ⟨_, stepMany_completes hruns hin rfl, rfl, ?_, ?_⟩
    · simpa [hsamples] using htrace
    · simpa [hsamples] using hlength

/-! ### The framing law (R165) -/

/-- A byte is the sum of its bits by their weights. -/
theorem bitSum_bits (v : Byte) :
    BitVec.ofNat 8 (bitSum v[0] v[1] v[2] v[3] v[4] v[5] v[6] v[7]) = v := by
  revert v
  decide

/-- The bits of a byte, assembled, are the byte (R162, R165). -/
theorem byteOfSamples_bitsOf (v : Byte) : byteOfSamples (bitsOf v) 0 = v := by
  rw [bitsOf, byteOfSamples_eight, bitSum_bits]

/-- A byte read takes eight samples (R162). -/
theorem sampleCount_readSlots : sampleCount readSlots = 8 := rfl

/-- Settles O51: the samples of the forty events are the script's first eight answers, and the completion assembles
them. -/
theorem framingLaw : Obligations.FramingLaw := by
  intro v more s hidle hin hdevice
  have hlist : eventList .readByte (latchOperands Instr.readByte.opcode s) = readSlots := eventList_readByte _
  refine ⟨_, _, exec_accepts .readByte hidle, stepMany_completes (runs_acceptedState .readByte _ s) hin rfl, rfl, ?_⟩
  obtain ⟨hsamples, hmore⟩ := performAll_script (s := acceptedState .readByte readSlots s) (answers := bitsOf v)
    sampleCount_readSlots.symm hdevice
  rw [acceptedState_samples, List.nil_append] at hsamples
  rw [hlist, acceptedState_events, complete_readByte]
  refine ⟨?_, hmore⟩
  rw [readReg, hsamples, byteOfSamples_bitsOf]

/-! ### A polled run (R96) -/

/-- One round of a poll on a busy engine is two steps: the read, and the running command's next action. -/
theorem stepMany_poll_round {i : Instr} {s t : State} {rest : List Input} (hruns : runs i s)
    (hin : s.inputs = .poll :: rest)
    (hexec : exec i { logRead (regOffset .status) s with inputs := .poll :: rest } = .next t) :
    stepMany 2 s = .next t := by
  obtain ⟨hbusy, hop⟩ := hruns
  have hread := (pollReadsStatusUntilIdle s rest hin).2 hbusy
  have hturn : step { logRead (regOffset .status) s with inputs := .engineTurn :: .poll :: rest } = .next t := by
    rw [step_cons rfl, takeInput, ← hexec]
    exact engineTurn_busy hbusy ((decodeOp_ok_iff _ i).2 hop.symm)
  exact (stepMany_next 1 hread).trans (stepMany_next 0 hturn)

/-- POLL ends: every round but the last performs one of the events left, and the last one completes (R118). -/
theorem poll_ends {i : Instr} {s : State} (hruns : runs i s) (hin : s.inputs = [.poll]) :
    ∃ k t, stepMany k s = .next t ∧ programEnded t ∧ t.cmd = s.cmd ∧ t.status.illegal = s.status.illegal ∧
      t.status.ovr = s.status.ovr := by
  induction hleft : s.events.length - s.ev generalizing s with
  | zero =>
    have hend : atEnd s := Nat.sub_eq_zero_iff_le.1 hleft
    have hround := stepMany_poll_round hruns hin (exec_completes hruns hend)
    generalize hc : complete (doneOf i) { logRead (regOffset .status) s with inputs := [.poll] } = c at hround
    have hpoll : c.inputs = [.poll] := by simp [← hc]
    have hidle : c.status.busy = false := by simp [← hc]
    refine ⟨2 + 1, _, (stepMany_add hround).trans (stepMany_next 0 ((pollReadsStatusUntilIdle c [] hpoll).1 hidle)),
      ⟨rfl, hidle⟩, ?_, ?_, ?_⟩
    all_goals simp [← hc]
  | succ n ih =>
    have hlt : s.ev < s.events.length := by omega
    have hround := stepMany_poll_round hruns hin (exec_performs hruns (List.getElem?_eq_getElem hlt))
    obtain ⟨k, t, hrun, hended, hcmd, hillegal, hovr⟩ :=
      ih (s := performEvent s.events[s.ev] { logRead (regOffset .status) s with inputs := [.poll] })
        (by simpa [runs] using hruns) (by simp) (by simp; omega)
    exact ⟨2 + k, t, (stepMany_add hround).trans hrun, hended, by simpa using hcmd, by simpa using hillegal,
      by simpa using hovr⟩

/-- Settles O52: the CMD write is accepted, and the poll after it ends. -/
theorem runOfCommandEnds : Obligations.RunOfCommandEnds := by
  intro i s hidle hin
  obtain ⟨es, haccept⟩ : ∃ es, step s = .next (acceptedState i es { s with inputs := [.poll] }) := by
    rw [step_hostWrite_cmd (v := encode i) (rest := [.poll]) hin,
      commandWrite_idle (s := { s with inputs := [.poll] }) hidle (decode_encode i)]
    exact ⟨_, exec_accepts i hidle⟩
  obtain ⟨k, t, hrun, hended, hcmd, hillegal, hovr⟩ :=
    poll_ends (runs_acceptedState i es { s with inputs := [.poll] }) rfl
  exact ⟨k + 1, t, (stepMany_next k haccept).trans hrun, hended, hcmd, hillegal, hovr⟩

end Sys2Proof.Machine
end

section
/-! The host's SETP: five words that carry eighteen bytes, which are nine patterns (R41, R66, R96, R192). -/

namespace Sys2Proof.Machine

open Sys2Proof.Statement

/-- The calibration window that holds the given bytes. -/
def windowOfBytes (cal : Vector Byte 18) : CalWindow :=
  { cal0 := wordOfLanes cal[0] cal[1] cal[2] cal[3]
    cal1 := wordOfLanes cal[4] cal[5] cal[6] cal[7]
    cal2 := wordOfLanes cal[8] cal[9] cal[10] cal[11]
    cal3 := wordOfLanes cal[12] cal[13] cal[14] cal[15]
    cal4 := (wordOfLanes cal[16] cal[17] 0 0).setWidth 16 }

/-- A register write of the host's program, then the rest of the run (R95). -/
theorem stepMany_hostWr {r : Reg} {v : Word} {rest : List Input} {s : State} (k : Nat) (hr : r ≠ .cmd)
    (hin : s.inputs = hostWr r v ++ rest) : stepMany (k + 1) s = stepMany k (writeReg r v { s with inputs := rest }) :=
  stepMany_next k (step_hostWrite_reg hr hin)

/-- SETCAL is five register writes (R96). -/
theorem stepMany_hostSetCal {cal : Vector Byte 18} {s : State} (hin : s.inputs = hostSetCal cal) :
    stepMany 5 s = .next { s with inputs := [], cal := windowOfBytes cal } := by
  simp only [hostSetCal, List.append_assoc] at hin
  rw [stepMany_hostWr (r := .cal0) 4 nofun hin, stepMany_hostWr (r := .cal1) 3 nofun (writeReg_inputs _ _ _),
    stepMany_hostWr (r := .cal2) 2 nofun (writeReg_inputs _ _ _),
    stepMany_hostWr (r := .cal3) 1 nofun (writeReg_inputs _ _ _),
    stepMany_hostWr (r := .cal4) 0 nofun ((writeReg_inputs _ _ _).trans (List.append_nil _).symm)]
  simp only [writeReg, stepMany_zero, windowOfBytes]

/-- CAL4 keeps the two bytes it has (R41). -/
theorem cal4_word (b0 b1 : Byte) :
    ((wordOfLanes b0 b1 0 0).setWidth 16).setWidth 32 = wordOfLanes b0 b1 0 0 := by
  have h0 := b0.isLt
  have h1 := b1.isLt
  apply BitVec.eq_of_toNat_eq
  simp [wordOfLanes_toNat]
  omega

/-- Byte k of that window is byte k of the buffer (R41, R65). -/
theorem windowOfBytes_byte (cal : Vector Byte 18) {k : Nat} (hk : k < 18) : (windowOfBytes cal).byte k = cal[k] := by
  obtain ⟨h0, h1, h2, h3⟩ := lane_wordOfLanes cal[0] cal[1] cal[2] cal[3]
  obtain ⟨h4, h5, h6, h7⟩ := lane_wordOfLanes cal[4] cal[5] cal[6] cal[7]
  obtain ⟨h8, h9, h10, h11⟩ := lane_wordOfLanes cal[8] cal[9] cal[10] cal[11]
  obtain ⟨h12, h13, h14, h15⟩ := lane_wordOfLanes cal[12] cal[13] cal[14] cal[15]
  obtain ⟨h16, h17, -, -⟩ := lane_wordOfLanes cal[16] cal[17] 0 0
  rw [← cal4_word] at h16 h17
  interval_cases k
  exacts [h0, h1, h2, h3, h4, h5, h6, h7, h8, h9, h10, h11, h12, h13, h14, h15, h16, h17]

/-- Byte k of a SETP: byte k mod 2 of pattern k div 2, as a number (R96). -/
theorem coefficientBytes_toNat (p : Vector (BitVec 16) 9) {k : Nat} (hk : k < 18) :
    (coefficientBytes p)[k].toNat = p[k / 2].toNat / 2 ^ (8 * (k % 2)) % 256 := by
  simp [coefficientBytes, BitVec.extractLsb'_toNat, Nat.shiftRight_eq_div_pow]

/-- Settles O60: the five words leave the window of the eighteen bytes, whose pairs are the patterns. -/
theorem setPStoresCoefficients : Obligations.SetPStoresCoefficients := by
  intro p s hin
  refine ⟨windowOfBytes (coefficientBytes p), stepMany_hostSetCal hin, fun i => ?_⟩
  have hbyte {k : Nat} (hk : k < 18) : (windowOfBytes (coefficientBytes p)).bytes[k] = (coefficientBytes p)[k] := by
    rw [CalWindow.bytes_getElem _ hk, windowOfBytes_byte _ hk]
  have hpattern := p[i.val].isLt
  have hlow : (windowOfBytes (coefficientBytes p)).bytes[2 * i.val].toNat = p[i.val].toNat % 256 := by
    have hhalf : 2 * i.val / 2 = i.val := by omega
    have hrem : 2 * i.val % 2 = 0 := by omega
    rw [hbyte, coefficientBytes_toNat]
    simp only [hhalf, hrem]
    simp
  have hhigh : (windowOfBytes (coefficientBytes p)).bytes[2 * i.val + 1].toNat = p[i.val].toNat / 256 := by
    have hhalf : (2 * i.val + 1) / 2 = i.val := by omega
    have hrem : (2 * i.val + 1) % 2 = 1 := by omega
    rw [hbyte, coefficientBytes_toNat]
    simp only [hhalf, hrem]
    omega
  refine ⟨hlow, hhigh, BitVec.eq_of_toNat_eq ?_⟩
  rw [calField_toNat, hlow, hhigh]
  omega

end Sys2Proof.Machine
end

section
/-! What the device answers never steers (R115, R119): two runs that differ in answers only take the same course. -/

namespace Sys2Proof.Machine

open Sys2Proof.Statement

/-- Two states on the same course: they agree in everything but sampled bits, what is computed or read from them, and
the device. -/
structure SameCourse (s u : State) : Prop where
  trace : s.trace.map shape = u.trace.map shape
  samples : s.samples.length = u.samples.length
  events : s.events = u.events
  ev : s.ev = u.ev
  drive : s.drive = u.drive
  latch : s.latch = u.latch
  inputs : s.inputs = u.inputs
  cmd : s.cmd = u.cmd
  txdata : s.txdata = u.txdata
  praw : s.praw = u.praw
  tfine : s.tfine = u.tfine
  cal : s.cal = u.cal
  press : s.press = u.press
  alt : s.alt = u.alt
  busy : s.status.busy = u.status.busy
  divz : s.status.divz = u.status.divz
  altr : s.status.altr = u.status.altr
  illegal : s.status.illegal = u.status.illegal
  ovr : s.status.ovr = u.status.ovr

/-- Two outcomes on the same course: both go on so, or both stop with the same fault. -/
inductive SameOutcome : Host.Outcome State Fault Refusal → Host.Outcome State Fault Refusal → Prop where
  | next {t v : State} (h : SameCourse t v) : SameOutcome (.next t) (.next v)
  | fault (f : Fault) : SameOutcome (.fault f) (.fault f)

/-- Where the one goes on, the other does. -/
theorem SameOutcome.exists_next {t : State} {o : Host.Outcome State Fault Refusal} (h : SameOutcome (.next t) o) :
    ∃ v, o = .next v ∧ SameCourse t v := by
  cases h with
  | next h => exact ⟨_, rfl, h⟩

/-! ### The shared operations -/

namespace SameCourse

variable {s u : State} (h : SameCourse s u)
include h

/-- The same operands are latched (R43). -/
theorem latchOperands_eq (op : BitVec 4) : latchOperands op s = latchOperands op u := by
  simp only [latchOperands, h.txdata, h.praw, h.tfine, h.cal]

/-- The same input leaves both lists. -/
theorem taken (rest : List Input) : SameCourse { s with inputs := rest } { u with inputs := rest } :=
  { h with inputs := rfl }

/-- Acceptance (R110). -/
theorem accept (op : BitVec 4) (es : Latches → List BusOp) :
    SameCourse (Machine.accept op es s) (Machine.accept op es u) :=
  { h with
    samples := rfl, ev := rfl, cmd := rfl, busy := rfl, illegal := rfl, ovr := rfl
    latch := h.latchOperands_eq op
    events := congrArg es (h.latchOperands_eq op) }

/-- A reserved opcode recorded (R111). -/
theorem illegalCommand (v : Word) : SameCourse (Machine.illegalCommand v s) (Machine.illegalCommand v u) :=
  { h with cmd := rfl, illegal := rfl, ovr := rfl }

/-- A CMD write dropped (R112). -/
theorem dropCommand : SameCourse (Machine.dropCommand s) (Machine.dropCommand u) := { h with ovr := rfl }

/-- A read, whatever it returns (R68). -/
theorem logRead (off : BitVec 7) : SameCourse (Machine.logRead off s) (Machine.logRead off u) := { h with }

/-- A register write of the host (R64). -/
theorem writeReg (r : Reg) (v : Word) : SameCourse (Machine.writeReg r v s) (Machine.writeReg r v u) := by
  cases r with
  | cmd | status | rxdata | scratch | temp | press | alt => exact h
  | txdata => exact { h with txdata := rfl }
  | praw => exact { h with praw := rfl }
  | tfine => exact { h with tfine := rfl }
  | cal0 | cal1 | cal2 | cal3 | cal4 => exact { h with cal := by simp only [Machine.writeReg, h.cal] }

/-- A round of a poll: both read the same BUSY (R96). -/
theorem hostPoll : SameCourse (Machine.hostPoll s) (Machine.hostPoll u) := by
  have hbusy := h.busy
  cases hu : u.status.busy with
  | false =>
    rw [hostPoll_idle hu, hostPoll_idle (hbusy.trans hu)]
    exact h.logRead _
  | true =>
    rw [hostPoll_busy hu, hostPoll_busy (hbusy.trans hu), h.inputs]
    exact (h.logRead _).taken _

/-- A reset adds the same events: they depend on BUSY and DRIVE (R281). -/
theorem takeReset : SameCourse (Machine.takeReset s) (Machine.takeReset u) where
  trace := by simp only [takeReset_trace, List.map_append, h.trace, resetEvents, h.busy, h.drive]
  samples := rfl
  events := rfl
  ev := rfl
  drive := rfl
  latch := rfl
  inputs := h.inputs
  cmd := rfl
  txdata := rfl
  praw := rfl
  tfine := rfl
  cal := rfl
  press := rfl
  alt := rfl
  busy := rfl
  divz := rfl
  altr := rfl
  illegal := rfl
  ovr := rfl

end SameCourse

/-- The shape of an event's trace does not show the sampled bit. -/
theorem shape_performed (e : BusOp) (b b' : Bit) : (performed [e] [b]).map shape = (performed [e] [b']).map shape := by
  cases e <;> rfl

/-- An event, whatever a sample of it returns (R113). -/
theorem SameCourse.performEvent {s u : State} (h : SameCourse s u) (e : BusOp) :
    SameCourse (Machine.performEvent e s) (Machine.performEvent e u) where
  trace := by
    rw [performEvent_trace, performEvent_trace, List.map_append, List.map_append, h.trace,
      shape_performed e _ (senseBit u)]
  samples := by
    rw [performEvent_samples, performEvent_samples]
    split <;> simp [h.samples]
  drive := by rw [performEvent_drive, performEvent_drive, h.drive]
  events := by simpa using h.events
  ev := by simpa using h.ev
  latch := by simpa using h.latch
  inputs := by simpa using h.inputs
  cmd := by simpa using h.cmd
  txdata := by simpa using h.txdata
  praw := by simpa using h.praw
  tfine := by simpa using h.tfine
  cal := by simpa using h.cal
  press := by simpa using h.press
  alt := by simpa using h.alt
  busy := by simpa using h.busy
  divz := by simpa using h.divz
  altr := by simpa using h.altr
  illegal := by simpa using h.illegal
  ovr := by simpa using h.ovr

/-- PRESS, ALT, DIVZ and ALTR come from the latches alone, or stay (R197, R235). -/
theorem doneOf_pressure_altitude (i : Instr) (l : Latches) (ss ss' : List Bit) {s u : State} (h : SameCourse s u) :
    (doneOf i l ss s).press = (doneOf i l ss' u).press ∧ (doneOf i l ss s).alt = (doneOf i l ss' u).alt ∧
    (doneOf i l ss s).status.divz = (doneOf i l ss' u).status.divz ∧
    (doneOf i l ss s).status.altr = (doneOf i l ss' u).status.altr := by
  cases i with
  | compensate => exact ⟨rfl, h.alt, rfl, h.altr⟩
  | altitude => exact ⟨rfl, rfl, rfl, rfl⟩
  | _ => exact ⟨h.press, h.alt, h.divz, h.altr⟩

/-- A completion, whatever the samples were (R114). -/
theorem SameCourse.complete {s u : State} (h : SameCourse s u) (i : Instr) :
    SameCourse (Machine.complete (doneOf i) s) (Machine.complete (doneOf i) u) := by
  obtain ⟨hpress, halt, hdivz, haltr⟩ := doneOf_pressure_altitude i u.latch s.samples u.samples h
  rw [← h.latch] at hpress halt hdivz haltr
  constructor
  case press => simpa [h.latch] using hpress
  case alt => simpa [h.latch] using halt
  case divz => simpa [h.latch] using hdivz
  case altr => simpa [h.latch] using haltr
  case busy => rfl
  all_goals simp [h.trace, h.samples, h.events, h.ev, h.drive, h.latch, h.inputs, h.cmd, h.txdata, h.praw, h.tfine,
    h.cal, h.illegal, h.ovr]

/-! ### The turns -/

/-- The engine takes the same branch of the lifecycle: it looks at BUSY, the latched opcode and the sequencer (R110 to
R114). -/
theorem SameCourse.exec {s u : State} (h : SameCourse s u) (i : Instr) :
    SameOutcome (Machine.exec i s) (Machine.exec i u) := by
  rw [exec_eq_runCommand, exec_eq_runCommand, runCommand, runCommand, h.busy, h.latch, h.events, h.ev]
  split
  · split
    · cases u.events[u.ev]? with
      | some e => exact .next (h.performEvent e)
      | none => exact .next (h.complete i)
    · exact .next h.dropCommand
  · exact .next (h.accept _ _)

/-- The same command runs, or none. -/
theorem SameCourse.engineTurn {s u : State} (h : SameCourse s u) :
    SameOutcome (Machine.engineTurn s) (Machine.engineTurn u) := by
  rw [Machine.engineTurn, Machine.engineTurn, h.busy, h.latch]
  split
  · cases decodeOp u.latch.op with
    | ok i => exact h.exec i
    | error r => exact .fault _
  · exact .next h

/-- The same word is dropped, decoded or rejected by both. -/
theorem SameCourse.commandWrite {s u : State} (h : SameCourse s u) (v : Word) :
    SameOutcome (Machine.commandWrite v s) (Machine.commandWrite v u) := by
  rw [Machine.commandWrite, Machine.commandWrite, h.busy]
  split
  · exact .next h.dropCommand
  · cases decode v with
    | ok i => exact h.exec i
    | error r => exact .next (h.illegalCommand v)

/-- The same register is written, or the same fault raised. -/
theorem SameCourse.hostWrite {s u : State} (h : SameCourse s u) (off : BitVec 7) (width : Width) (v : Word) :
    SameOutcome (Machine.hostWrite off width v s) (Machine.hostWrite off width v u) := by
  rw [Machine.hostWrite, Machine.hostWrite]
  split
  · split
    · exact h.commandWrite v
    · exact .next (h.writeReg _ v)
    · exact .next h
  · exact .fault _

/-- Every kind of input. -/
theorem SameCourse.takeInput {s u : State} (h : SameCourse s u) (i : Input) :
    SameOutcome (Machine.takeInput i s) (Machine.takeInput i u) := by
  cases i with
  | engineTurn => exact h.engineTurn
  | hostRead off width =>
    rw [Machine.takeInput, Machine.takeInput, hostRead, hostRead]
    split
    · exact .next (h.logRead off)
    · exact .fault _
  | hostWrite off width v => exact h.hostWrite off width v
  | poll => exact .next h.hostPoll
  | reset => exact .next h.takeReset

/-- A step keeps two states on the same course. -/
theorem SameCourse.step {s u : State} (h : SameCourse s u) : SameOutcome (Machine.step s) (Machine.step u) := by
  cases hin : s.inputs with
  | nil =>
    rw [step_nil hin, step_nil (h.inputs.symm.trans hin)]
    exact h.engineTurn
  | cons i rest =>
    rw [step_cons hin, step_cons (h.inputs.symm.trans hin)]
    exact (h.taken rest).takeInput i

/-- A run of one goes with a run of the other, as far. -/
theorem SameCourse.stepMany {s u t : State} {k : Nat} (h : SameCourse s u) (hrun : stepMany k s = .next t) :
    ∃ v, Machine.stepMany k u = .next v ∧ SameCourse t v := by
  induction k generalizing s u with
  | zero =>
    obtain rfl := Host.Outcome.next.inj hrun
    exact ⟨u, rfl, h⟩
  | succ k ih =>
    obtain ⟨s', hfirst, hrest⟩ := stepMany_split hrun
    have houtcome := h.step
    rw [hfirst] at houtcome
    obtain ⟨u', hfirst', h'⟩ := houtcome.exists_next
    rw [stepMany_next k hfirst']
    exact ih h' hrest

/-- Settles O58: another device leaves the state on its course, and every step keeps it there. -/
theorem samplesNeverSteer : Obligations.SamplesNeverSteer := by
  intro s t d k hrun
  have hstart : SameCourse s { s with device := d } := by constructor <;> rfl
  obtain ⟨u, hrun', h⟩ := hstart.stepMany hrun
  exact ⟨u, hrun', h.trace, h.samples, h.events, h.ev, h.drive, h.latch, h.inputs, h.cmd, h.txdata, h.praw, h.tfine,
    h.cal, h.press, h.alt, h.busy, h.divz, h.altr, h.illegal, h.ovr⟩

end Sys2Proof.Machine
end

section
/-! The encodings of binary64, read from their fields as the statements read them (R230, notes/assumptions/12.md). -/

namespace Sys2Proof.Machine

open Sys2Proof.Statement

/-- The magnitude read from the fields is the model's. -/
theorem magnitude_eq_f64Units (x : DWord) : magnitude x = f64Units x := by
  have hexponent : x.toNat / 2 ^ 52 % 2 ^ 11 = f64Exponent x := by
    unfold f64Exponent f64Abs
    omega
  rw [magnitude, hexponent]
  rfl

/-- Finite encodings are those below infinity's. -/
theorem isFinite_iff (x : DWord) : isFinite x ↔ f64Abs x < infinityBits := by
  unfold isFinite f64Abs infinityBits
  omega

/-- The sign bit as the model reads it. -/
theorem isNegative_iff (x : DWord) : isNegative x ↔ f64Sign x = true := by
  have hlt := x.isLt
  rw [isNegative, f64Sign, BitVec.getLsbD, Nat.testBit_eq_decide_div_mod_eq, decide_eq_true_eq]
  omega

/-- The value read from the fields is the model's. -/
theorem valueOf_eq_f64Value (x : DWord) : valueOf x = f64Value x := by
  have hsign : x.toNat / 2 ^ 63 = 1 ↔ f64Sign x = true := isNegative_iff x
  simp only [valueOf, f64Value, hsign, magnitude_eq_f64Units]

/-- A zero has no units, and nothing else has none. -/
theorem f64Abs_eq_zero_iff (x : DWord) : f64Abs x = 0 ↔ magnitude x = 0 := by
  unfold f64Abs magnitude
  split
  · omega
  · next hexponent =>
    have hpos : 0 < (2 ^ 52 + x.toNat % 2 ^ 52) * 2 ^ (x.toNat / 2 ^ 52 % 2 ^ 11 - 1) := by positivity
    omega

/-- A finite magnitude is a significand of 53 bits moved up by a binade. -/
theorem magnitude_eq_significand (x : DWord) : ∃ m k, magnitude x = m * 2 ^ k ∧ m < 2 ^ 53 := by
  unfold magnitude
  split
  · exact ⟨x.toNat % 2 ^ 52, 0, (Nat.mul_one _).symm, by omega⟩
  · exact ⟨_, _, rfl, by omega⟩

/-! ### Encodings that differ in the sign at most -/

/-- The magnitude does not depend on the sign bit. -/
theorem magnitude_congr {x y : DWord} (h : f64Abs x = f64Abs y) : magnitude x = magnitude y := by
  have hfields : x.toNat / 2 ^ 52 % 2 ^ 11 = y.toNat / 2 ^ 52 % 2 ^ 11 ∧ x.toNat % 2 ^ 52 = y.toNat % 2 ^ 52 := by
    unfold f64Abs at h
    omega
  rw [magnitude, magnitude, hfields.1, hfields.2]

/-- Rounding to an encoding does not depend on its sign bit. -/
theorem roundsTo_congr {n d : Nat} {x y : DWord} (h : f64Abs x = f64Abs y) (hx : roundsTo n d x) : roundsTo n d y := by
  obtain ⟨hbelow, habove⟩ := hx
  have hparity : x.toNat % 2 = y.toNat % 2 := by
    unfold f64Abs at h
    omega
  refine ⟨fun hlt => ?_, fun hge => h.symm.trans (habove hge)⟩
  simpa only [isFinite_iff, distance, h, magnitude_congr h, hparity] using hbelow hlt

/-- A packed encoding without its sign. -/
theorem f64Abs_pack_signed (sign : Bit) {e : Nat} (he : e < 2 ^ 63) : f64Abs (f64Pack sign e) = e := by
  rw [f64Abs, f64Pack_signed_toNat sign he]
  cases sign <;> simp <;> omega

/-- The sign of a packed encoding. -/
theorem isNegative_pack (sign : Bit) {e : Nat} (he : e < 2 ^ 63) : isNegative (f64Pack sign e) ↔ sign = true := by
  rw [isNegative, f64Pack_signed_toNat sign he]
  cases sign <;> simp <;> omega

/-- A rounded magnitude leaves the sign bit free. -/
theorem roundUnits_lt (n d : Nat) : roundUnits n d < 2 ^ 63 := (roundUnits_le n d).trans_lt infinityBits_lt

end Sys2Proof.Machine
end

section
/-! Rounding to nearest, ties to even (R11, R230): of a whole number of steps, and of the 53 bits a magnitude keeps. -/

namespace Sys2Proof.Machine

open Sys2Proof.Statement

/-! ### `roundHalfEven` -/

/-- A whole number of steps is not rounded. -/
theorem roundHalfEven_exact {D : Nat} (hD : 0 < D) (j : Nat) : roundHalfEven (j * D) D = j := by
  simp [roundHalfEven, hD]

/-- Below a and a half steps no more than a are counted. -/
theorem roundHalfEven_le {n D a : Nat} (h : 2 * n < (2 * a + 1) * D) : roundHalfEven n D ≤ a := by
  have hsplit := Nat.div_add_mod n D
  have hdiv : n / D ≤ a := by
    apply Nat.le_of_lt_succ
    apply Nat.div_lt_of_lt_mul
    nlinarith
  unfold roundHalfEven
  split
  · exact hdiv
  · next hup =>
    by_contra hbig
    have heq : n / D = a := by omega
    rw [heq] at hsplit hup
    have hrem : 2 * (n % D) < D := by nlinarith
    exact hup (.inl hrem)

/-- From a and a half steps on, a odd, more than a are counted. -/
theorem lt_roundHalfEven {n D a : Nat} (hD : 0 < D) (hodd : a % 2 = 1) (h : (2 * a + 1) * D ≤ 2 * n) :
    a < roundHalfEven n D := by
  have hsplit := Nat.div_add_mod n D
  have hdiv : a ≤ n / D := by
    rw [Nat.le_div_iff_mul_le hD]
    nlinarith
  unfold roundHalfEven
  split
  · next hdown =>
    by_contra hsmall
    have heq : n / D = a := by omega
    rw [heq] at hsplit hdown
    have hrem : D ≤ 2 * (n % D) := by nlinarith
    omega
  · exact Nat.lt_succ_of_le hdiv

/-- Where the multiples of D lie around one of them: at least one step below it, at it, one step above, or further. -/
theorem multiple_cases (D a j : Nat) :
    (j + 1 ≤ a ∧ j * D + D ≤ a * D) ∨ (j = a ∧ j * D = a * D) ∨ (j = a + 1 ∧ j * D = a * D + D) ∨
      (a + 2 ≤ j ∧ a * D + D + D ≤ j * D) := by
  have hside : j + 1 ≤ a ∨ j = a ∨ j = a + 1 ∨ a + 2 ≤ j := by omega
  rcases hside with hj | rfl | rfl | hj
  · exact .inl ⟨hj, Nat.succ_mul j D ▸ Nat.mul_le_mul_right D hj⟩
  · exact .inr (.inl ⟨rfl, rfl⟩)
  · exact .inr (.inr (.inl ⟨rfl, Nat.succ_mul a D⟩))
  · refine .inr (.inr (.inr ⟨hj, ?_⟩))
    have hmul := Nat.mul_le_mul_right D hj
    rwa [Nat.succ_mul, Nat.succ_mul] at hmul

/-- No whole number of steps is nearer, and with another one as near the count is even. -/
theorem roundHalfEven_nearest {n D : Nat} (hD : 0 < D) (j : Nat) :
    (((roundHalfEven n D * D : Nat) : Int) - n).natAbs ≤ (((j * D : Nat) : Int) - n).natAbs ∧
    ((((roundHalfEven n D * D : Nat) : Int) - n).natAbs = (((j * D : Nat) : Int) - n).natAbs → j ≠ roundHalfEven n D →
      roundHalfEven n D % 2 = 0) := by
  have hsplit := Nat.div_add_mod' n D
  have hrem := Nat.mod_lt n hD
  have hj := multiple_cases D (n / D) j
  have hsucc := Nat.succ_mul (n / D) D
  unfold roundHalfEven
  generalize n / D = a at *
  generalize n % D = r at *
  generalize j * D = J at *
  split
  · generalize a * D = A at *
    omega
  · rw [hsucc]
    generalize a * D = A at *
    omega

/-! ### The binade and the significand of a magnitude -/

/-- The step of the binade in which n / d lies, times d. -/
def binadeStep (n d : Nat) : Nat := d * 2 ^ binade (n / d)

/-- The significand of n / d: its steps, rounded. -/
def significand (n d : Nat) : Nat := roundHalfEven n (binadeStep n d)

/-- The encoding joins the binade and the significand; past infinity's it is infinity. -/
theorem roundUnits_eq (n d : Nat) : roundUnits n d = min (binade (n / d) * 2 ^ 52 + significand n d) infinityBits := rfl

/-- A step is not 0. -/
theorem binadeStep_pos {n d : Nat} (hd : 0 < d) : 0 < binadeStep n d := Nat.mul_pos hd (Nat.two_pow_pos _)

/-- Above the least binade the magnitude has at least 2^52 steps. -/
theorem le_of_binade_pos {n d : Nat} (hk : 0 < binade (n / d)) : 2 ^ 52 * binadeStep n d ≤ n := by
  rcases binade_bounds (n / d) with ⟨-, h0⟩ | ⟨-, hlo, -⟩
  · omega
  · calc 2 ^ 52 * binadeStep n d = d * 2 ^ (52 + binade (n / d)) := by rw [binadeStep, pow_add]; ring
      _ ≤ d * (n / d) := Nat.mul_le_mul_left d hlo
      _ ≤ n := Nat.mul_div_le n d

/-- In every binade the magnitude has less than 2^53 steps. -/
theorem lt_binade_top {n d : Nat} (hd : 0 < d) : n < 2 ^ 53 * binadeStep n d := by
  have hq : n / d < 2 ^ (53 + binade (n / d)) := by
    rcases binade_bounds (n / d) with ⟨hlt, h0⟩ | ⟨-, -, hhi⟩
    · rwa [h0]
    · exact hhi
  calc n < 2 ^ (53 + binade (n / d)) * d := (Nat.div_lt_iff_lt_mul hd).1 hq
    _ = 2 ^ 53 * binadeStep n d := by rw [binadeStep, pow_add]; ring

/-- The significand has 53 bits, or is the next power of two. -/
theorem significand_le {n d : Nat} (hd : 0 < d) : significand n d ≤ 2 ^ 53 := by
  refine roundHalfEven_le ?_
  have hlt := lt_binade_top (n := n) hd
  omega

/-- Above the least binade the significand fills its 53 bits. -/
theorem le_significand {n d : Nat} (hd : 0 < d) (hk : 0 < binade (n / d)) : 2 ^ 52 ≤ significand n d := by
  have hlt : 2 ^ 52 - 1 < significand n d := by
    refine lt_roundHalfEven (binadeStep_pos hd) (by decide) ?_
    have hle := le_of_binade_pos hk
    omega
  omega

/-! ### The two sides of overflow -/

/-- A larger power of two gives a larger multiple. -/
theorem mul_two_pow_le (c : Nat) {a b : Nat} (h : a ≤ b) : c * 2 ^ a ≤ c * 2 ^ b :=
  Nat.mul_le_mul_left c (Nat.pow_le_pow_right Nat.two_pos h)

/-- Half a step past the largest finite magnitude, in units: from there on the rounding is infinity. -/
def overflowUnits : Nat := (2 ^ 54 - 1) * 2 ^ 2044

/-- It lies between the powers of two 2^2097 and 2^2098. -/
theorem overflowUnits_bounds : 2 ^ 53 * 2 ^ 2044 ≤ overflowUnits ∧ overflowUnits ≤ 2 ^ 52 * 2 ^ 2046 := by
  rw [overflowUnits, pow_succ 2 2045, pow_succ 2 2044]
  generalize 2 ^ 2044 = p
  omega

/-- In the last finite binade it is 2^53 - 1 steps and a half. -/
theorem overflowUnits_steps (d : Nat) : 2 * (d * overflowUnits) = (2 * (2 ^ 53 - 1) + 1) * (d * 2 ^ 2045) := by
  rw [overflowUnits, pow_succ 2 2044]
  generalize 2 ^ 2044 = p
  ring

/-- Below it the binade and the significand make a finite encoding. -/
theorem encoding_lt_infinity {n d : Nat} (hd : 0 < d) (h : n < d * overflowUnits) :
    binade (n / d) * 2 ^ 52 + significand n d < infinityBits := by
  have hm := significand_le (n := n) hd
  have hk : binade (n / d) ≤ 2045 := by
    by_contra hbig
    have hle := le_of_binade_pos (n := n) (d := d) (by omega)
    have hpow : overflowUnits ≤ 2 ^ 52 * 2 ^ binade (n / d) := by
      calc overflowUnits ≤ 2 ^ 52 * 2 ^ 2046 := overflowUnits_bounds.2
        _ ≤ 2 ^ 52 * 2 ^ binade (n / d) := mul_two_pow_le _ (by omega)
    have : d * overflowUnits ≤ n := by
      calc d * overflowUnits ≤ d * (2 ^ 52 * 2 ^ binade (n / d)) := Nat.mul_le_mul_left d hpow
        _ = 2 ^ 52 * binadeStep n d := by rw [binadeStep]; ring
        _ ≤ n := hle
    omega
  unfold infinityBits
  rcases Nat.lt_or_ge (binade (n / d)) 2045 with hlt | hge
  · omega
  · have hlast : significand n d ≤ 2 ^ 53 - 1 := by
      refine roundHalfEven_le ?_
      rw [binadeStep, Nat.le_antisymm hk hge, ← overflowUnits_steps]
      omega
    omega

/-- From there on they make infinity's encoding or a larger one. -/
theorem infinity_le_encoding {n d : Nat} (hd : 0 < d) (h : d * overflowUnits ≤ n) :
    infinityBits ≤ binade (n / d) * 2 ^ 52 + significand n d := by
  have hk : 2045 ≤ binade (n / d) := by
    by_contra hsmall
    have hlt := lt_binade_top (n := n) hd
    have hpow : 2 ^ 53 * 2 ^ binade (n / d) ≤ overflowUnits := by
      calc 2 ^ 53 * 2 ^ binade (n / d) ≤ 2 ^ 53 * 2 ^ 2044 := mul_two_pow_le _ (by omega)
        _ ≤ overflowUnits := overflowUnits_bounds.1
    have : n < d * overflowUnits := by
      calc n < 2 ^ 53 * binadeStep n d := hlt
        _ = d * (2 ^ 53 * 2 ^ binade (n / d)) := by rw [binadeStep]; ring
        _ ≤ d * overflowUnits := Nat.mul_le_mul_left d hpow
    omega
  unfold infinityBits
  rcases Nat.lt_or_ge 2045 (binade (n / d)) with hlt | hge
  · have hm := le_significand (n := n) hd (by omega)
    omega
  · have hfull : 2 ^ 53 - 1 < significand n d := by
      refine lt_roundHalfEven (binadeStep_pos hd) (by decide) ?_
      rw [binadeStep, Nat.le_antisymm hge hk, ← overflowUnits_steps]
      omega
    omega

/-! ### Every finite encoding against the rounded one (R230) -/

/-- The magnitude of the encoding that a binade and its significand make. -/
theorem magnitude_pack_significand {n d : Nat} (hd : 0 < d)
    (hfinite : binade (n / d) * 2 ^ 52 + significand n d < infinityBits) :
    magnitude (f64Pack false (binade (n / d) * 2 ^ 52 + significand n d)) = significand n d * 2 ^ binade (n / d) := by
  rw [magnitude_eq_f64Units]
  refine f64Units_pack (hfinite.trans infinityBits_lt) (significand_le hd) ?_
  rcases Nat.eq_zero_or_pos (binade (n / d)) with h0 | hpos
  · exact .inl h0
  · exact .inr (le_significand hd hpos)

/-- A finite magnitude is a whole number of steps of the binade, or lies below that binade altogether. -/
theorem magnitude_cases (y : DWord) (n d : Nat) :
    (∃ j, magnitude y * d = j * binadeStep n d) ∨
      (0 < binade (n / d) ∧ magnitude y < 2 ^ 52 * 2 ^ binade (n / d)) := by
  obtain ⟨m, k, hy, hm⟩ := magnitude_eq_significand y
  rw [hy, binadeStep]
  rcases Nat.lt_or_ge k (binade (n / d)) with hlt | hge
  · refine .inr ⟨Nat.zero_lt_of_lt hlt, ?_⟩
    calc m * 2 ^ k < 2 ^ 53 * 2 ^ k := Nat.mul_lt_mul_of_pos_right hm (Nat.two_pow_pos k)
      _ = 2 ^ 52 * 2 ^ (k + 1) := by ring
      _ ≤ 2 ^ 52 * 2 ^ binade (n / d) := mul_two_pow_le _ hlt
  · refine .inl ⟨m * 2 ^ (k - binade (n / d)), ?_⟩
    have hpow : 2 ^ k = 2 ^ (k - binade (n / d)) * 2 ^ binade (n / d) := by rw [← pow_add, Nat.sub_add_cancel hge]
    rw [hpow]
    ring

/-- No finite encoding is nearer than the significand's, and with another one as near the significand is even. -/
theorem significand_nearest {n d : Nat} (hd : 0 < d) (y : DWord) :
    (((significand n d * binadeStep n d : Nat) : Int) - n).natAbs ≤ (((magnitude y * d : Nat) : Int) - n).natAbs ∧
    ((((significand n d * binadeStep n d : Nat) : Int) - n).natAbs = (((magnitude y * d : Nat) : Int) - n).natAbs →
      magnitude y ≠ significand n d * 2 ^ binade (n / d) → significand n d % 2 = 0) := by
  have hnearest := roundHalfEven_nearest (n := n) (binadeStep_pos (n := n) hd)
  rcases magnitude_cases y n d with ⟨j, hj⟩ | ⟨hk, hbelow⟩
  case inl =>
    rw [hj]
    refine ⟨(hnearest j).1, fun htie hne => (hnearest j).2 htie ?_⟩
    rintro rfl
    refine hne (Nat.eq_of_mul_eq_mul_right hd (hj.trans ?_))
    rw [significand, binadeStep]
    ring
  case inr =>
    have hlow := le_of_binade_pos hk
    have hfar : magnitude y * d < 2 ^ 52 * binadeStep n d := by
      calc magnitude y * d < 2 ^ 52 * 2 ^ binade (n / d) * d := Nat.mul_lt_mul_of_pos_right hbelow hd
        _ = 2 ^ 52 * binadeStep n d := by rw [binadeStep]; ring
    have hbase := (hnearest (2 ^ 52)).1
    rw [← significand] at hbase
    generalize significand n d * binadeStep n d = M at *
    omega

/-- The distance of an encoding's magnitude, over natural numbers. -/
theorem distance_eq (y : DWord) (n d : Nat) : distance y n d = (((magnitude y * d : Nat) : Int) - n).natAbs := by
  rw [distance, Nat.cast_mul]

/-- `roundUnits` rounds every n / d to nearest, ties to even, with its overflow (R230). -/
theorem roundsTo_roundUnits {n d : Nat} (hd : 0 < d) : roundsTo n d (f64Pack false (roundUnits n d)) := by
  refine ⟨fun hlt => ?below, fun hge => ?above⟩
  case below =>
    have hfinite := encoding_lt_infinity hd hlt
    have henc : roundUnits n d = binade (n / d) * 2 ^ 52 + significand n d := by
      rw [roundUnits_eq, min_eq_left hfinite.le]
    have hmag := magnitude_pack_significand hd hfinite
    have hsteps : significand n d * 2 ^ binade (n / d) * d = significand n d * binadeStep n d := by
      rw [binadeStep]
      ring
    rw [henc]
    refine ⟨?_, fun y _ => ?_⟩
    · rw [isFinite_iff, f64Abs_pack (hfinite.trans infinityBits_lt)]
      exact hfinite
    · obtain ⟨hnearest, htie⟩ := significand_nearest (n := n) hd y
      rw [distance_eq, distance_eq, hmag, hsteps]
      refine ⟨hnearest, fun heq hne => ?_⟩
      have heven := htie heq hne
      rw [f64Pack_toNat (hfinite.trans infinityBits_lt)]
      omega
  case above =>
    have henc : roundUnits n d = infinityBits := by rw [roundUnits_eq, min_eq_right (infinity_le_encoding hd hge)]
    rw [henc, f64Pack_toNat infinityBits_lt]
    rfl

/-- The same with a sign: the sign bit is not part of the magnitude. -/
theorem roundsTo_pack_roundUnits (sign : Bit) {n d : Nat} (hd : 0 < d) :
    roundsTo n d (f64Pack sign (roundUnits n d)) := by
  refine roundsTo_congr ?_ (roundsTo_roundUnits hd)
  rw [f64Abs_pack_signed _ (roundUnits_lt n d), f64Abs_pack_signed _ (roundUnits_lt n d)]

/-! ### The three operations -/

/-- The signs of two operands differ. -/
theorem signs_differ_iff (x y : DWord) : (f64Sign x != f64Sign y) = true ↔ ¬(isNegative x ↔ isNegative y) := by
  rw [isNegative_iff, isNegative_iff]
  cases f64Sign x <;> cases f64Sign y <;> simp

/-- Settles O40: each operation is one packed rounding of its exact result. -/
theorem roundsToNearestEven : Obligations.RoundsToNearestEven := by
  refine ⟨fun n d hd => roundsTo_roundUnits hd, fun x y hx hy => ?_⟩
  rw [isFinite_iff] at hx hy
  refine ⟨?product, fun hy0 => ?quotient, fun hne => ?difference, fun heq => ?zero⟩
  case product =>
    rw [fmul_finite hx hy, isNegative_pack _ (roundUnits_lt _ _), signs_differ_iff, magnitude_eq_f64Units,
      magnitude_eq_f64Units]
    exact ⟨roundsTo_pack_roundUnits _ unitsPerOne_pos, Iff.rfl⟩
  case quotient =>
    rw [fdiv_finite hx hy (mt (f64Abs_eq_zero_iff y).1 hy0), isNegative_pack _ (roundUnits_lt _ _), signs_differ_iff]
    rw [magnitude_eq_f64Units] at hy0 ⊢
    rw [magnitude_eq_f64Units]
    exact ⟨roundsTo_pack_roundUnits _ (Nat.pos_of_ne_zero hy0), Iff.rfl⟩
  case difference =>
    simp only [valueOf_eq_f64Value] at hne ⊢
    rw [fsub_finite hx hy hne, isNegative_pack _ (roundUnits_lt _ _), decide_eq_true_eq]
    exact ⟨roundsTo_pack_roundUnits _ Nat.one_pos, Iff.rfl⟩
  case zero =>
    rw [valueOf_eq_f64Value, valueOf_eq_f64Value] at heq
    have hpos : (0 : Nat) < 2 ^ 63 := by decide
    rw [fsub_equal hx hy heq, ← f64Abs_eq_zero_iff, ← f64Abs_eq_zero_iff, isFinite_iff, f64Abs_pack_signed _ hpos,
      isNegative_pack _ hpos, isNegative_iff, isNegative_iff]
    exact ⟨rfl, by decide, by simp [f64IsZero, and_assoc]⟩

/-! ### Whole numbers below 2^53 (R11) -/

/-- A whole number below 2^53 is a whole number of steps of its binade: the binade is not above the one of 2^52. -/
theorem two_pow_binade_dvd {n : Nat} (hn : n < 2 ^ 53) : 2 ^ binade (n * unitsPerOne) ∣ n * unitsPerOne := by
  have hk : binade (n * unitsPerOne) ≤ 1074 := by
    rcases binade_bounds (n * unitsPerOne) with ⟨-, h0⟩ | ⟨-, hlo, -⟩
    · omega
    · have hlt : 2 ^ (52 + binade (n * unitsPerOne)) < 2 ^ (53 + 1074) := by
        calc 2 ^ (52 + binade (n * unitsPerOne)) ≤ n * unitsPerOne := hlo
          _ < 2 ^ 53 * unitsPerOne := Nat.mul_lt_mul_of_pos_right hn unitsPerOne_pos
          _ = 2 ^ (53 + 1074) := by rw [pow_add 2 53, unitsPerOne]
      have := (Nat.pow_lt_pow_iff_right (by decide)).1 hlt
      omega
  exact Dvd.dvd.mul_left (pow_dvd_pow 2 hk) n

/-- So its significand is exact. -/
theorem significand_ofNat {n : Nat} (hn : n < 2 ^ 53) :
    significand (n * unitsPerOne) 1 * 2 ^ binade (n * unitsPerOne / 1) = n * unitsPerOne := by
  obtain ⟨j, hj⟩ := two_pow_binade_dvd hn
  have hpos : 0 < 2 ^ binade (n * unitsPerOne) := Nat.two_pow_pos _
  rw [significand, binadeStep, Nat.div_one, Nat.one_mul]
  generalize 2 ^ binade (n * unitsPerOne) = D at *
  rw [hj, Nat.mul_comm D j, roundHalfEven_exact hpos]

/-- It lies far below overflow. -/
theorem ofNat_lt_overflow {n : Nat} (hn : n < 2 ^ 53) : n * unitsPerOne < 1 * overflowUnits := by
  calc n * unitsPerOne < 2 ^ 53 * unitsPerOne := Nat.mul_lt_mul_of_pos_right hn unitsPerOne_pos
    _ = 2 ^ 53 * 2 ^ 1074 := by rw [unitsPerOne]
    _ ≤ 2 ^ 53 * 2 ^ 2044 := mul_two_pow_le _ (by decide)
    _ ≤ 1 * overflowUnits := by rw [Nat.one_mul]; exact overflowUnits_bounds.1

/-- Settles O39: the units are a whole number of steps, so nothing is rounded away. -/
theorem integersConvertExactly : Obligations.IntegersConvertExactly := by
  intro n hn
  have hfinite := encoding_lt_infinity Nat.one_pos (ofNat_lt_overflow hn)
  have hlt := hfinite.trans infinityBits_lt
  rw [f64OfNat, roundUnits_eq, min_eq_left hfinite.le, ← magnitude_eq_f64Units,
    magnitude_pack_significand Nat.one_pos hfinite, significand_ofNat hn]
  refine ⟨rfl, ?_, f64Sign_pack hlt⟩
  rwa [f64Abs_pack hlt]

end Sys2Proof.Machine
end

section
/-! The altitude of a pressure below 25600 (R236). -/

namespace Sys2Proof.Machine

open Sys2Proof.Statement

/-- The quotient of R231 is 0 below 25600, and so is the ratio. -/
theorem pressureRatio_of_small {press : Word} (h : press.toNat < 25600) :
    pressureRatio press = 0x0000000000000000#64 := by
  rw [pressureRatio, Nat.div_eq_of_lt h]
  decide +kernel

/-- 1.0 - (+0) is 1.0, exactly. -/
theorem fsub_one_zero : fsub 0x3FF0000000000000#64 0x0000000000000000#64 = 0x3FF0000000000000#64 := by decide +kernel

/-- 44330.0 * 1.0 is 44330.0, exactly. -/
theorem fmul_scale_one : fmul 0x40E5A54000000000#64 0x3FF0000000000000#64 = 0x40E5A54000000000#64 := by decide +kernel

/-- 44330.0 converts to 44330 (R234). -/
theorem convertAltitude_scale : convertAltitude 0x40E5A54000000000#64 = (44330, false) := by decide +kernel

/-- Settles O42: the ratio is +0, and then every operation of the formula is exact. -/
theorem altitudeOfSmallPressure : Obligations.AltitudeOfSmallPressure := by
  intro pow press hpow hsmall
  have hvalue : altitudeValue pow press = 0x40E5A54000000000#64 := by
    rw [altitudeValue, pressureRatio_of_small hsmall, hpow, fsub_one_zero, fmul_scale_one]
  rw [hvalue, pressureRatio_of_small hsmall, hpow]
  exact ⟨rfl, rfl, fsub_one_zero, rfl, convertAltitude_scale⟩

end Sys2Proof.Machine
end
